-- ==== Sys2Proof/Word.lean ====
section
/-!
DEFINITION. The word types of ZIGCORE: the control word, the container widths and the signedness of a request.
Rules: 00_scope.md R7, R14; 30_encoding.md R80, R82, R83.
-/

namespace Sys2Proof

/-- The 32-bit control word CW of a request (R80, R94). -/
abbrev ControlWord := BitVec 32

/-- The signedness a request selects: `u` for S = 0, `i` for S = 1 (R82). -/
inductive Sign where
  | u
  | i
deriving DecidableEq, Repr

/-- The five container widths, called StorageWidth by the source (R7). -/
inductive Width where
  | w8
  | w16
  | w32
  | w64
  | w128
deriving DecidableEq, Repr

/-- The number N of bits of a container (R7). -/
def Width.bits : Width → Nat
  | .w8 => 8
  | .w16 => 16
  | .w32 => 32
  | .w64 => 64
  | .w128 => 128

end Sys2Proof
end

