-- ==== Sys2Proof/Config.lean ====
section
/-!
DEFINITION. The three parameters an implementation fixes for the life of the block (00_scope.md R10 to R13, 92 D4).
They have no body: nothing in Lean can prove a value of them, so no statement rests on one.
-/

namespace Sys2Proof

/-- P_NATIVE_INT128: whether 128-bit operations use a native datapath (R10). -/
opaque Config.nativeInt128 : Bool

/-- P_HW_OVF: whether the overflow detector uses a hardware primitive (R11). -/
opaque Config.hwOvf : Bool

/-- P_BITOP_INTRINSIC, a set of container widths, as its membership test: whether the bit-manipulation units of a width
use an intrinsic (R12). -/
opaque Config.bitopIntrinsic : Width → Bool

end Sys2Proof
end

