-- ==== Sys2Proof/Syntax.lean ====
section
/-!
DEFINITION. The operations (30_encoding.md R87), the request a host submits (R80, R84) and the instructions: one constructor
per row of the opcode table, which carries BITS where the row has it and the operands at the widths R84 gives them.
-/

namespace Sys2Proof

/-- The 29 operations of the opcode map (R87). -/
inductive Op where
  | wrap
  | not
  | and
  | or
  | xor
  | shl
  | shr
  | addw
  | subw
  | mulw
  | addo
  | subo
  | mulo
  | adds
  | subs
  | muls
  | divTrunc
  | rem
  | divFloor
  | mod
  | clz
  | ctz
  | popcount
  | byteswap
  | bitreverse
  | make
  | hi
  | lo
  | cmp
deriving DecidableEq, Repr

/-- A request: a control word and two operand lanes (R80). An operand of width w is the low w bits of its lane; a lane of an
operand the operation does not take, and the bits of a lane above its operand, carry nothing (DESIGN CHOICE, safe: log entry 5). -/
structure Request where
  cw : ControlWord
  a : BitVec 128
  b : BitVec 128
deriving DecidableEq, Repr

/-- The instructions, one per legal (OP, S, W) (R88), named by the operation, the signedness and the container width. -/
inductive Instr where
  | wrapU8 (bits : BitVec 8) (a : BitVec 8)
  | wrapU16 (bits : BitVec 8) (a : BitVec 16)
  | wrapU32 (bits : BitVec 8) (a : BitVec 32)
  | wrapU64 (bits : BitVec 8) (a : BitVec 64)
  | wrapU128 (bits : BitVec 8) (a : BitVec 128)
  | wrapI8 (bits : BitVec 8) (a : BitVec 8)
  | wrapI16 (bits : BitVec 8) (a : BitVec 16)
  | wrapI32 (bits : BitVec 8) (a : BitVec 32)
  | wrapI64 (bits : BitVec 8) (a : BitVec 64)
  | wrapI128 (bits : BitVec 8) (a : BitVec 128)
  | notU8 (bits : BitVec 8) (a : BitVec 8)
  | notU16 (bits : BitVec 8) (a : BitVec 16)
  | notU32 (bits : BitVec 8) (a : BitVec 32)
  | notU64 (bits : BitVec 8) (a : BitVec 64)
  | notU128 (bits : BitVec 8) (a : BitVec 128)
  | notI8 (bits : BitVec 8) (a : BitVec 8)
  | notI16 (bits : BitVec 8) (a : BitVec 16)
  | notI32 (bits : BitVec 8) (a : BitVec 32)
  | notI64 (bits : BitVec 8) (a : BitVec 64)
  | notI128 (bits : BitVec 8) (a : BitVec 128)
  | andU8 (bits : BitVec 8) (a b : BitVec 8)
  | andU16 (bits : BitVec 8) (a b : BitVec 16)
  | andU32 (bits : BitVec 8) (a b : BitVec 32)
  | andU64 (bits : BitVec 8) (a b : BitVec 64)
  | andU128 (bits : BitVec 8) (a b : BitVec 128)
  | andI8 (bits : BitVec 8) (a b : BitVec 8)
  | andI16 (bits : BitVec 8) (a b : BitVec 16)
  | andI32 (bits : BitVec 8) (a b : BitVec 32)
  | andI64 (bits : BitVec 8) (a b : BitVec 64)
  | andI128 (bits : BitVec 8) (a b : BitVec 128)
  | orU8 (bits : BitVec 8) (a b : BitVec 8)
  | orU16 (bits : BitVec 8) (a b : BitVec 16)
  | orU32 (bits : BitVec 8) (a b : BitVec 32)
  | orU64 (bits : BitVec 8) (a b : BitVec 64)
  | orU128 (bits : BitVec 8) (a b : BitVec 128)
  | orI8 (bits : BitVec 8) (a b : BitVec 8)
  | orI16 (bits : BitVec 8) (a b : BitVec 16)
  | orI32 (bits : BitVec 8) (a b : BitVec 32)
  | orI64 (bits : BitVec 8) (a b : BitVec 64)
  | orI128 (bits : BitVec 8) (a b : BitVec 128)
  | xorU8 (bits : BitVec 8) (a b : BitVec 8)
  | xorU16 (bits : BitVec 8) (a b : BitVec 16)
  | xorU32 (bits : BitVec 8) (a b : BitVec 32)
  | xorU64 (bits : BitVec 8) (a b : BitVec 64)
  | xorU128 (bits : BitVec 8) (a b : BitVec 128)
  | xorI8 (bits : BitVec 8) (a b : BitVec 8)
  | xorI16 (bits : BitVec 8) (a b : BitVec 16)
  | xorI32 (bits : BitVec 8) (a b : BitVec 32)
  | xorI64 (bits : BitVec 8) (a b : BitVec 64)
  | xorI128 (bits : BitVec 8) (a b : BitVec 128)
  | shlU8 (bits : BitVec 8) (a : BitVec 8) (b : BitVec 8)
  | shlU16 (bits : BitVec 8) (a : BitVec 16) (b : BitVec 8)
  | shlU32 (bits : BitVec 8) (a : BitVec 32) (b : BitVec 8)
  | shlU64 (bits : BitVec 8) (a : BitVec 64) (b : BitVec 8)
  | shlU128 (bits : BitVec 8) (a : BitVec 128) (b : BitVec 8)
  | shlI8 (bits : BitVec 8) (a : BitVec 8) (b : BitVec 8)
  | shlI16 (bits : BitVec 8) (a : BitVec 16) (b : BitVec 8)
  | shlI32 (bits : BitVec 8) (a : BitVec 32) (b : BitVec 8)
  | shlI64 (bits : BitVec 8) (a : BitVec 64) (b : BitVec 8)
  | shlI128 (bits : BitVec 8) (a : BitVec 128) (b : BitVec 8)
  | shrU8 (bits : BitVec 8) (a : BitVec 8) (b : BitVec 8)
  | shrU16 (bits : BitVec 8) (a : BitVec 16) (b : BitVec 8)
  | shrU32 (bits : BitVec 8) (a : BitVec 32) (b : BitVec 8)
  | shrU64 (bits : BitVec 8) (a : BitVec 64) (b : BitVec 8)
  | shrU128 (bits : BitVec 8) (a : BitVec 128) (b : BitVec 8)
  | shrI8 (bits : BitVec 8) (a : BitVec 8) (b : BitVec 8)
  | shrI16 (bits : BitVec 8) (a : BitVec 16) (b : BitVec 8)
  | shrI32 (bits : BitVec 8) (a : BitVec 32) (b : BitVec 8)
  | shrI64 (bits : BitVec 8) (a : BitVec 64) (b : BitVec 8)
  | shrI128 (bits : BitVec 8) (a : BitVec 128) (b : BitVec 8)
  | addwU8 (bits : BitVec 8) (a b : BitVec 8)
  | addwU16 (bits : BitVec 8) (a b : BitVec 16)
  | addwU32 (bits : BitVec 8) (a b : BitVec 32)
  | addwU64 (bits : BitVec 8) (a b : BitVec 64)
  | addwU128 (bits : BitVec 8) (a b : BitVec 128)
  | addwI8 (bits : BitVec 8) (a b : BitVec 8)
  | addwI16 (bits : BitVec 8) (a b : BitVec 16)
  | addwI32 (bits : BitVec 8) (a b : BitVec 32)
  | addwI64 (bits : BitVec 8) (a b : BitVec 64)
  | addwI128 (bits : BitVec 8) (a b : BitVec 128)
  | subwU8 (bits : BitVec 8) (a b : BitVec 8)
  | subwU16 (bits : BitVec 8) (a b : BitVec 16)
  | subwU32 (bits : BitVec 8) (a b : BitVec 32)
  | subwU64 (bits : BitVec 8) (a b : BitVec 64)
  | subwU128 (bits : BitVec 8) (a b : BitVec 128)
  | subwI8 (bits : BitVec 8) (a b : BitVec 8)
  | subwI16 (bits : BitVec 8) (a b : BitVec 16)
  | subwI32 (bits : BitVec 8) (a b : BitVec 32)
  | subwI64 (bits : BitVec 8) (a b : BitVec 64)
  | subwI128 (bits : BitVec 8) (a b : BitVec 128)
  | mulwU8 (bits : BitVec 8) (a b : BitVec 8)
  | mulwU16 (bits : BitVec 8) (a b : BitVec 16)
  | mulwU32 (bits : BitVec 8) (a b : BitVec 32)
  | mulwU64 (bits : BitVec 8) (a b : BitVec 64)
  | mulwU128 (bits : BitVec 8) (a b : BitVec 128)
  | mulwI8 (bits : BitVec 8) (a b : BitVec 8)
  | mulwI16 (bits : BitVec 8) (a b : BitVec 16)
  | mulwI32 (bits : BitVec 8) (a b : BitVec 32)
  | mulwI64 (bits : BitVec 8) (a b : BitVec 64)
  | mulwI128 (bits : BitVec 8) (a b : BitVec 128)
  | addoU8 (bits : BitVec 8) (a b : BitVec 8)
  | addoU16 (bits : BitVec 8) (a b : BitVec 16)
  | addoU32 (bits : BitVec 8) (a b : BitVec 32)
  | addoU64 (bits : BitVec 8) (a b : BitVec 64)
  | addoU128 (bits : BitVec 8) (a b : BitVec 128)
  | addoI8 (bits : BitVec 8) (a b : BitVec 8)
  | addoI16 (bits : BitVec 8) (a b : BitVec 16)
  | addoI32 (bits : BitVec 8) (a b : BitVec 32)
  | addoI64 (bits : BitVec 8) (a b : BitVec 64)
  | addoI128 (bits : BitVec 8) (a b : BitVec 128)
  | suboU8 (bits : BitVec 8) (a b : BitVec 8)
  | suboU16 (bits : BitVec 8) (a b : BitVec 16)
  | suboU32 (bits : BitVec 8) (a b : BitVec 32)
  | suboU64 (bits : BitVec 8) (a b : BitVec 64)
  | suboU128 (bits : BitVec 8) (a b : BitVec 128)
  | suboI8 (bits : BitVec 8) (a b : BitVec 8)
  | suboI16 (bits : BitVec 8) (a b : BitVec 16)
  | suboI32 (bits : BitVec 8) (a b : BitVec 32)
  | suboI64 (bits : BitVec 8) (a b : BitVec 64)
  | suboI128 (bits : BitVec 8) (a b : BitVec 128)
  | muloU8 (bits : BitVec 8) (a b : BitVec 8)
  | muloU16 (bits : BitVec 8) (a b : BitVec 16)
  | muloU32 (bits : BitVec 8) (a b : BitVec 32)
  | muloU64 (bits : BitVec 8) (a b : BitVec 64)
  | muloU128 (bits : BitVec 8) (a b : BitVec 128)
  | muloI8 (bits : BitVec 8) (a b : BitVec 8)
  | muloI16 (bits : BitVec 8) (a b : BitVec 16)
  | muloI32 (bits : BitVec 8) (a b : BitVec 32)
  | muloI64 (bits : BitVec 8) (a b : BitVec 64)
  | muloI128 (bits : BitVec 8) (a b : BitVec 128)
  | addsU8 (bits : BitVec 8) (a b : BitVec 8)
  | addsU16 (bits : BitVec 8) (a b : BitVec 16)
  | addsU32 (bits : BitVec 8) (a b : BitVec 32)
  | addsU64 (bits : BitVec 8) (a b : BitVec 64)
  | addsU128 (bits : BitVec 8) (a b : BitVec 128)
  | addsI8 (bits : BitVec 8) (a b : BitVec 8)
  | addsI16 (bits : BitVec 8) (a b : BitVec 16)
  | addsI32 (bits : BitVec 8) (a b : BitVec 32)
  | addsI64 (bits : BitVec 8) (a b : BitVec 64)
  | addsI128 (bits : BitVec 8) (a b : BitVec 128)
  | subsU8 (bits : BitVec 8) (a b : BitVec 8)
  | subsU16 (bits : BitVec 8) (a b : BitVec 16)
  | subsU32 (bits : BitVec 8) (a b : BitVec 32)
  | subsU64 (bits : BitVec 8) (a b : BitVec 64)
  | subsU128 (bits : BitVec 8) (a b : BitVec 128)
  | subsI8 (bits : BitVec 8) (a b : BitVec 8)
  | subsI16 (bits : BitVec 8) (a b : BitVec 16)
  | subsI32 (bits : BitVec 8) (a b : BitVec 32)
  | subsI64 (bits : BitVec 8) (a b : BitVec 64)
  | subsI128 (bits : BitVec 8) (a b : BitVec 128)
  | mulsU8 (bits : BitVec 8) (a b : BitVec 8)
  | mulsU16 (bits : BitVec 8) (a b : BitVec 16)
  | mulsU32 (bits : BitVec 8) (a b : BitVec 32)
  | mulsU64 (bits : BitVec 8) (a b : BitVec 64)
  | mulsU128 (bits : BitVec 8) (a b : BitVec 128)
  | mulsI8 (bits : BitVec 8) (a b : BitVec 8)
  | mulsI16 (bits : BitVec 8) (a b : BitVec 16)
  | mulsI32 (bits : BitVec 8) (a b : BitVec 32)
  | mulsI64 (bits : BitVec 8) (a b : BitVec 64)
  | mulsI128 (bits : BitVec 8) (a b : BitVec 128)
  | divTruncU8 (bits : BitVec 8) (a b : BitVec 8)
  | divTruncU16 (bits : BitVec 8) (a b : BitVec 16)
  | divTruncU32 (bits : BitVec 8) (a b : BitVec 32)
  | divTruncU64 (bits : BitVec 8) (a b : BitVec 64)
  | divTruncU128 (bits : BitVec 8) (a b : BitVec 128)
  | divTruncI8 (bits : BitVec 8) (a b : BitVec 8)
  | divTruncI16 (bits : BitVec 8) (a b : BitVec 16)
  | divTruncI32 (bits : BitVec 8) (a b : BitVec 32)
  | divTruncI64 (bits : BitVec 8) (a b : BitVec 64)
  | divTruncI128 (bits : BitVec 8) (a b : BitVec 128)
  | remU8 (bits : BitVec 8) (a b : BitVec 8)
  | remU16 (bits : BitVec 8) (a b : BitVec 16)
  | remU32 (bits : BitVec 8) (a b : BitVec 32)
  | remU64 (bits : BitVec 8) (a b : BitVec 64)
  | remU128 (bits : BitVec 8) (a b : BitVec 128)
  | remI8 (bits : BitVec 8) (a b : BitVec 8)
  | remI16 (bits : BitVec 8) (a b : BitVec 16)
  | remI32 (bits : BitVec 8) (a b : BitVec 32)
  | remI64 (bits : BitVec 8) (a b : BitVec 64)
  | remI128 (bits : BitVec 8) (a b : BitVec 128)
  | divFloorU8 (bits : BitVec 8) (a b : BitVec 8)
  | divFloorU16 (bits : BitVec 8) (a b : BitVec 16)
  | divFloorU32 (bits : BitVec 8) (a b : BitVec 32)
  | divFloorU64 (bits : BitVec 8) (a b : BitVec 64)
  | divFloorU128 (bits : BitVec 8) (a b : BitVec 128)
  | divFloorI8 (bits : BitVec 8) (a b : BitVec 8)
  | divFloorI16 (bits : BitVec 8) (a b : BitVec 16)
  | divFloorI32 (bits : BitVec 8) (a b : BitVec 32)
  | divFloorI64 (bits : BitVec 8) (a b : BitVec 64)
  | divFloorI128 (bits : BitVec 8) (a b : BitVec 128)
  | modU8 (bits : BitVec 8) (a b : BitVec 8)
  | modU16 (bits : BitVec 8) (a b : BitVec 16)
  | modU32 (bits : BitVec 8) (a b : BitVec 32)
  | modU64 (bits : BitVec 8) (a b : BitVec 64)
  | modU128 (bits : BitVec 8) (a b : BitVec 128)
  | modI8 (bits : BitVec 8) (a b : BitVec 8)
  | modI16 (bits : BitVec 8) (a b : BitVec 16)
  | modI32 (bits : BitVec 8) (a b : BitVec 32)
  | modI64 (bits : BitVec 8) (a b : BitVec 64)
  | modI128 (bits : BitVec 8) (a b : BitVec 128)
  | clzU8 (bits : BitVec 8) (a : BitVec 8)
  | clzU16 (bits : BitVec 8) (a : BitVec 16)
  | clzU32 (bits : BitVec 8) (a : BitVec 32)
  | clzU64 (bits : BitVec 8) (a : BitVec 64)
  | clzU128 (bits : BitVec 8) (a : BitVec 128)
  | clzI8 (bits : BitVec 8) (a : BitVec 8)
  | clzI16 (bits : BitVec 8) (a : BitVec 16)
  | clzI32 (bits : BitVec 8) (a : BitVec 32)
  | clzI64 (bits : BitVec 8) (a : BitVec 64)
  | clzI128 (bits : BitVec 8) (a : BitVec 128)
  | ctzU8 (bits : BitVec 8) (a : BitVec 8)
  | ctzU16 (bits : BitVec 8) (a : BitVec 16)
  | ctzU32 (bits : BitVec 8) (a : BitVec 32)
  | ctzU64 (bits : BitVec 8) (a : BitVec 64)
  | ctzU128 (bits : BitVec 8) (a : BitVec 128)
  | ctzI8 (bits : BitVec 8) (a : BitVec 8)
  | ctzI16 (bits : BitVec 8) (a : BitVec 16)
  | ctzI32 (bits : BitVec 8) (a : BitVec 32)
  | ctzI64 (bits : BitVec 8) (a : BitVec 64)
  | ctzI128 (bits : BitVec 8) (a : BitVec 128)
  | popcountU8 (bits : BitVec 8) (a : BitVec 8)
  | popcountU16 (bits : BitVec 8) (a : BitVec 16)
  | popcountU32 (bits : BitVec 8) (a : BitVec 32)
  | popcountU64 (bits : BitVec 8) (a : BitVec 64)
  | popcountU128 (bits : BitVec 8) (a : BitVec 128)
  | popcountI8 (bits : BitVec 8) (a : BitVec 8)
  | popcountI16 (bits : BitVec 8) (a : BitVec 16)
  | popcountI32 (bits : BitVec 8) (a : BitVec 32)
  | popcountI64 (bits : BitVec 8) (a : BitVec 64)
  | popcountI128 (bits : BitVec 8) (a : BitVec 128)
  | byteswapU8 (bits : BitVec 8) (a : BitVec 8)
  | byteswapU16 (bits : BitVec 8) (a : BitVec 16)
  | byteswapU32 (bits : BitVec 8) (a : BitVec 32)
  | byteswapU64 (bits : BitVec 8) (a : BitVec 64)
  | byteswapU128 (bits : BitVec 8) (a : BitVec 128)
  | byteswapI8 (bits : BitVec 8) (a : BitVec 8)
  | byteswapI16 (bits : BitVec 8) (a : BitVec 16)
  | byteswapI32 (bits : BitVec 8) (a : BitVec 32)
  | byteswapI64 (bits : BitVec 8) (a : BitVec 64)
  | byteswapI128 (bits : BitVec 8) (a : BitVec 128)
  | bitreverseU8 (bits : BitVec 8) (a : BitVec 8)
  | bitreverseU16 (bits : BitVec 8) (a : BitVec 16)
  | bitreverseU32 (bits : BitVec 8) (a : BitVec 32)
  | bitreverseU64 (bits : BitVec 8) (a : BitVec 64)
  | bitreverseU128 (bits : BitVec 8) (a : BitVec 128)
  | bitreverseI8 (bits : BitVec 8) (a : BitVec 8)
  | bitreverseI16 (bits : BitVec 8) (a : BitVec 16)
  | bitreverseI32 (bits : BitVec 8) (a : BitVec 32)
  | bitreverseI64 (bits : BitVec 8) (a : BitVec 64)
  | bitreverseI128 (bits : BitVec 8) (a : BitVec 128)
  | makeU128 (a b : BitVec 64)
  | makeI128 (a b : BitVec 64)
  | hiU128 (a : BitVec 128)
  | hiI128 (a : BitVec 128)
  | loU128 (a : BitVec 128)
  | loI128 (a : BitVec 128)
  | cmpU128 (a b : BitVec 128)
  | cmpI128 (a b : BitVec 128)
deriving DecidableEq, Repr

end Sys2Proof
end

