-- ==== Sys2Proof/Machine/State.lean ====
section
/-!
DEFINITION. The architectural state (10_state.md R30 to R43), the reasons a step can stop, and the state after reset.
-/

namespace Sys2Proof.Machine

/-- What RES holds when it holds a value: a width and a bit vector of that width, with no signedness (R32). -/
structure Latch where
  width : Nat
  value : BitVec width
deriving DecidableEq, Repr

/-- The capability bits of CFG, read-only (R35). Bit 7 of CFG is hard-wired to 0 and is not stored. -/
structure Cfg where
  nativeInt128 : Bool
  hwOvf : Bool
  bitop8 : Bool
  bitop16 : Bool
  bitop32 : Bool
  bitop64 : Bool
  bitop128 : Bool
deriving DecidableEq, Repr

/-- The faults a request or a host read can raise (60_exceptions.md R300). Their numbers are `FaultCode.code`. -/
inductive FaultCode where
  /-- A control word that names no operation (R301). -/
  | illegalEncoding
  /-- OP 0x0F or 0x13 (R302). -/
  | reservedOp
  /-- LogicalWidth outside 1..N (R303). -/
  | badLogicalWidth
  /-- BYTESWAP with a LogicalWidth that is not a multiple of 8 (R304). -/
  | byteSwapWidth
  /-- An operand outside the range of its LogicalWidth (R305). -/
  | nonCanonicalOperand
  /-- A shift amount of N or more (R306). -/
  | shiftAmountOutOfRange
  /-- A zero divisor (R307). -/
  | divideByZero
  /-- The most negative value divided by -1 (R308). -/
  | divideOverflow
  /-- A host read of an empty latch or of a number that names no register (R37). -/
  | badRead
deriving DecidableEq, Repr

/-- One action of the host at the block's ports: a request (R80), a read of a register by its number (R36), a reset (R340). -/
inductive HostAction where
  | request (r : Request)
  | read (n : BitVec 8)
  | reset
deriving DecidableEq, Repr

/-- The value a host read returns: the pair RES holds, the Boolean OVF holds, or an 8-bit register (R37, R38). -/
inductive ReadValue where
  | latch (l : Latch)
  | flag (b : Bool)
  | byte (v : BitVec 8)
deriving DecidableEq, Repr

/-- The state. `cfg`, `res`, `ovf` and `fault` are the spec's (R32 to R35); `host` and `readValue` are the model's own
fields for what is outside the block at its ports (log entries 1 and 6). -/
structure State where
  /-- CFG, the configuration register (R35). -/
  cfg : Cfg
  /-- RES, the result latch: no value, or a width and a value (R32). -/
  res : Option Latch
  /-- OVF, the overflow latch: no value, or one Boolean (R33). -/
  ovf : Option Bool
  /-- FAULT, the sticky fault register, 0 for no fault (R34). -/
  fault : BitVec 8
  /-- The actions the host has still to make, the next one first (model's own field). -/
  host : List HostAction
  /-- What the host's last register read returned, if anything (model's own field). -/
  readValue : Option ReadValue
deriving DecidableEq, Repr

/-- Reasons the model stops with no next state. -/
inductive Fault where
  /-- Raised by every request offered while FAULT is not 0: the block accepts no request until reset, "it has no step"
  (R44, R313). Safe: the spec gives this state no successor. -/
  | requestNotAccepted
  /-- Raised by the step of a faulted block at which the host makes no action: a faulted state has no successor and is
  never a final one (R44, R348). Safe, as above. -/
  | faultedIdle
deriving DecidableEq, Repr

/-- Reasons the model gives no meaning. -/
inductive Refusal where
  /-- Raised by an arm of `exec` whose instruction is not modelled yet (none is left). Safe: nothing is proved of it. -/
  | notModelled (mnemonic : String)
deriving DecidableEq, Repr

/-- One step's answer. -/
abbrev Result := Host.Outcome State Fault Refusal

/-- CFG at its parameter values (R35, R43). -/
def Cfg.parameters : Cfg where
  nativeInt128 := Config.nativeInt128
  hwOvf := Config.hwOvf
  bitop8 := Config.bitopIntrinsic .w8
  bitop16 := Config.bitopIntrinsic .w16
  bitop32 := Config.bitopIntrinsic .w32
  bitop64 := Config.bitopIntrinsic .w64
  bitop128 := Config.bitopIntrinsic .w128

/-- The state after reset (R43, R340): RES and OVF hold no value, FAULT is 0x00, CFG holds its parameter values. The model's
own fields are empty (DESIGN CHOICE, safe: log entries 1 and 6). -/
def State.reset : State where
  cfg := Cfg.parameters
  res := none
  ovf := none
  fault := 0x00#8
  host := []
  readValue := none

end Sys2Proof.Machine
end

