-- ==== Sys2Proof/Decode.lean ====
section
/-!
DEFINITION. Decoding a request and encoding an instruction (30_encoding.md R80 to R92), both total. A control word that names
no instruction is rejected with the fault it raises (R310 rows 1 to 6); BITS out of range is no matter of decoding, since the
row's mask leaves BITS out (R88): the instruction itself then faults (R310 rows 7, 8; log entry 9).
-/

namespace Sys2Proof

open Machine (FaultCode)

/-! ## Numbers of operations and widths -/

/-- OP, bits 5:0 (R87). -/
def opCode : Op → BitVec 6
  | .wrap => 0x00#6
  | .not => 0x01#6
  | .and => 0x02#6
  | .or => 0x03#6
  | .xor => 0x04#6
  | .shl => 0x05#6
  | .shr => 0x06#6
  | .addw => 0x08#6
  | .subw => 0x09#6
  | .mulw => 0x0A#6
  | .addo => 0x0C#6
  | .subo => 0x0D#6
  | .mulo => 0x0E#6
  | .adds => 0x10#6
  | .subs => 0x11#6
  | .muls => 0x12#6
  | .divTrunc => 0x14#6
  | .rem => 0x15#6
  | .divFloor => 0x16#6
  | .mod => 0x17#6
  | .clz => 0x18#6
  | .ctz => 0x19#6
  | .popcount => 0x1A#6
  | .byteswap => 0x1B#6
  | .bitreverse => 0x1C#6
  | .make => 0x20#6
  | .hi => 0x21#6
  | .lo => 0x22#6
  | .cmp => 0x23#6

/-- The operation an OP value names, if it names one (R87). -/
def opOfCode (op : BitVec 6) : Option Op :=
  match op.toNat with
  | 0x00 => some .wrap
  | 0x01 => some .not
  | 0x02 => some .and
  | 0x03 => some .or
  | 0x04 => some .xor
  | 0x05 => some .shl
  | 0x06 => some .shr
  | 0x08 => some .addw
  | 0x09 => some .subw
  | 0x0A => some .mulw
  | 0x0C => some .addo
  | 0x0D => some .subo
  | 0x0E => some .mulo
  | 0x10 => some .adds
  | 0x11 => some .subs
  | 0x12 => some .muls
  | 0x14 => some .divTrunc
  | 0x15 => some .rem
  | 0x16 => some .divFloor
  | 0x17 => some .mod
  | 0x18 => some .clz
  | 0x19 => some .ctz
  | 0x1A => some .popcount
  | 0x1B => some .byteswap
  | 0x1C => some .bitreverse
  | 0x20 => some .make
  | 0x21 => some .hi
  | 0x22 => some .lo
  | 0x23 => some .cmp
  | _ => none

/-- The OP values kept for the overflow-checked and the saturating shift (R90). -/
def reservedOp (op : BitVec 6) : Bool := op == 0x0F#6 || op == 0x13#6

/-- The operations that exist at 128 bits only and take no LogicalWidth: MAKE, HI, LO and CMP (R86, R89). -/
def Op.only128 : Op → Bool
  | .wrap => false
  | .not => false
  | .and => false
  | .or => false
  | .xor => false
  | .shl => false
  | .shr => false
  | .addw => false
  | .subw => false
  | .mulw => false
  | .addo => false
  | .subo => false
  | .mulo => false
  | .adds => false
  | .subs => false
  | .muls => false
  | .divTrunc => false
  | .rem => false
  | .divFloor => false
  | .mod => false
  | .clz => false
  | .ctz => false
  | .popcount => false
  | .byteswap => false
  | .bitreverse => false
  | .make => true
  | .hi => true
  | .lo => true
  | .cmp => true

/-- W, bits 9:7 (R83). -/
def widthCode : Width → BitVec 3
  | .w8 => 0b000#3
  | .w16 => 0b001#3
  | .w32 => 0b010#3
  | .w64 => 0b011#3
  | .w128 => 0b100#3

/-- The container width a W code selects; three codes are reserved (R83). -/
def widthOfCode (w : BitVec 3) : Option Width :=
  match w.toNat with
  | 0 => some .w8
  | 1 => some .w16
  | 2 => some .w32
  | 3 => some .w64
  | 4 => some .w128
  | _ => none

/-- S, bit 6 (R82). -/
def signBit : Sign → BitVec 1
  | .u => 0#1
  | .i => 1#1

/-- The signedness S selects (R82). -/
def signOfBit (b : BitVec 1) : Sign := if b = 0#1 then .u else .i

/-! ## Operand widths -/

/-- The width of operand A (R84). -/
def Op.widthA : Op → Width → Nat
  | .make, _ => 64
  | .hi, _ => 128
  | .lo, _ => 128
  | .cmp, _ => 128
  | _, w => w.bits

/-- The width of operand B, 0 where the operation takes none (R84). -/
def Op.widthB : Op → Width → Nat
  | .wrap, _ => 0
  | .not, _ => 0
  | .and, w => w.bits
  | .or, w => w.bits
  | .xor, w => w.bits
  | .shl, _ => 8
  | .shr, _ => 8
  | .addw, w => w.bits
  | .subw, w => w.bits
  | .mulw, w => w.bits
  | .addo, w => w.bits
  | .subo, w => w.bits
  | .mulo, w => w.bits
  | .adds, w => w.bits
  | .subs, w => w.bits
  | .muls, w => w.bits
  | .divTrunc, w => w.bits
  | .rem, w => w.bits
  | .divFloor, w => w.bits
  | .mod, w => w.bits
  | .clz, _ => 0
  | .ctz, _ => 0
  | .popcount, _ => 0
  | .byteswap, _ => 0
  | .bitreverse, _ => 0
  | .make, _ => 64
  | .hi, _ => 0
  | .lo, _ => 0
  | .cmp, _ => 128

/-- The width of the result (R85). -/
def Op.resultWidth : Op → Width → Nat
  | .clz, _ => 8
  | .ctz, _ => 8
  | .popcount, _ => 8
  | .cmp, _ => 8
  | .hi, _ => 64
  | .lo, _ => 64
  | .make, _ => 128
  | _, w => w.bits

/-- Whether the operation writes OVF: ADDO, SUBO and MULO do (R85, R33). -/
def Op.writesOvf : Op → Bool
  | .addo => true
  | .subo => true
  | .mulo => true
  | _ => false

/-! ## The rows of the opcode table

For each operation, the instruction of a signedness and a container width. Lean's compiler builds no value of a constructor
past the 245th; the functions that build one are marked noncomputable, which is about compiled code only: Lean's kernel evaluates
them like the others, and `step` has a compiled form (Machine/ByFields.lean). -/

/-- The ten rows of WRAP (R121). -/
def wrapRow (sg : Sign) (w : Width) (bits : BitVec 8) (a : BitVec w.bits) : Instr :=
  match sg, w, a with
  | .u, .w8, a => .wrapU8 bits a
  | .u, .w16, a => .wrapU16 bits a
  | .u, .w32, a => .wrapU32 bits a
  | .u, .w64, a => .wrapU64 bits a
  | .u, .w128, a => .wrapU128 bits a
  | .i, .w8, a => .wrapI8 bits a
  | .i, .w16, a => .wrapI16 bits a
  | .i, .w32, a => .wrapI32 bits a
  | .i, .w64, a => .wrapI64 bits a
  | .i, .w128, a => .wrapI128 bits a

/-- The ten rows of NOT (R122). -/
def notRow (sg : Sign) (w : Width) (bits : BitVec 8) (a : BitVec w.bits) : Instr :=
  match sg, w, a with
  | .u, .w8, a => .notU8 bits a
  | .u, .w16, a => .notU16 bits a
  | .u, .w32, a => .notU32 bits a
  | .u, .w64, a => .notU64 bits a
  | .u, .w128, a => .notU128 bits a
  | .i, .w8, a => .notI8 bits a
  | .i, .w16, a => .notI16 bits a
  | .i, .w32, a => .notI32 bits a
  | .i, .w64, a => .notI64 bits a
  | .i, .w128, a => .notI128 bits a

/-- The ten rows of AND (R123). -/
def andRow (sg : Sign) (w : Width) (bits : BitVec 8) (a b : BitVec w.bits) : Instr :=
  match sg, w, a, b with
  | .u, .w8, a, b => .andU8 bits a b
  | .u, .w16, a, b => .andU16 bits a b
  | .u, .w32, a, b => .andU32 bits a b
  | .u, .w64, a, b => .andU64 bits a b
  | .u, .w128, a, b => .andU128 bits a b
  | .i, .w8, a, b => .andI8 bits a b
  | .i, .w16, a, b => .andI16 bits a b
  | .i, .w32, a, b => .andI32 bits a b
  | .i, .w64, a, b => .andI64 bits a b
  | .i, .w128, a, b => .andI128 bits a b

/-- The ten rows of OR (R124). -/
def orRow (sg : Sign) (w : Width) (bits : BitVec 8) (a b : BitVec w.bits) : Instr :=
  match sg, w, a, b with
  | .u, .w8, a, b => .orU8 bits a b
  | .u, .w16, a, b => .orU16 bits a b
  | .u, .w32, a, b => .orU32 bits a b
  | .u, .w64, a, b => .orU64 bits a b
  | .u, .w128, a, b => .orU128 bits a b
  | .i, .w8, a, b => .orI8 bits a b
  | .i, .w16, a, b => .orI16 bits a b
  | .i, .w32, a, b => .orI32 bits a b
  | .i, .w64, a, b => .orI64 bits a b
  | .i, .w128, a, b => .orI128 bits a b

/-- The ten rows of XOR (R125). -/
def xorRow (sg : Sign) (w : Width) (bits : BitVec 8) (a b : BitVec w.bits) : Instr :=
  match sg, w, a, b with
  | .u, .w8, a, b => .xorU8 bits a b
  | .u, .w16, a, b => .xorU16 bits a b
  | .u, .w32, a, b => .xorU32 bits a b
  | .u, .w64, a, b => .xorU64 bits a b
  | .u, .w128, a, b => .xorU128 bits a b
  | .i, .w8, a, b => .xorI8 bits a b
  | .i, .w16, a, b => .xorI16 bits a b
  | .i, .w32, a, b => .xorI32 bits a b
  | .i, .w64, a, b => .xorI64 bits a b
  | .i, .w128, a, b => .xorI128 bits a b

/-- The ten rows of SHL (R126). -/
def shlRow (sg : Sign) (w : Width) (bits : BitVec 8) (a : BitVec w.bits) (b : BitVec 8) : Instr :=
  match sg, w, a, b with
  | .u, .w8, a, b => .shlU8 bits a b
  | .u, .w16, a, b => .shlU16 bits a b
  | .u, .w32, a, b => .shlU32 bits a b
  | .u, .w64, a, b => .shlU64 bits a b
  | .u, .w128, a, b => .shlU128 bits a b
  | .i, .w8, a, b => .shlI8 bits a b
  | .i, .w16, a, b => .shlI16 bits a b
  | .i, .w32, a, b => .shlI32 bits a b
  | .i, .w64, a, b => .shlI64 bits a b
  | .i, .w128, a, b => .shlI128 bits a b

/-- The ten rows of SHR (R127). -/
def shrRow (sg : Sign) (w : Width) (bits : BitVec 8) (a : BitVec w.bits) (b : BitVec 8) : Instr :=
  match sg, w, a, b with
  | .u, .w8, a, b => .shrU8 bits a b
  | .u, .w16, a, b => .shrU16 bits a b
  | .u, .w32, a, b => .shrU32 bits a b
  | .u, .w64, a, b => .shrU64 bits a b
  | .u, .w128, a, b => .shrU128 bits a b
  | .i, .w8, a, b => .shrI8 bits a b
  | .i, .w16, a, b => .shrI16 bits a b
  | .i, .w32, a, b => .shrI32 bits a b
  | .i, .w64, a, b => .shrI64 bits a b
  | .i, .w128, a, b => .shrI128 bits a b

/-- The ten rows of ADDW (R151). -/
def addwRow (sg : Sign) (w : Width) (bits : BitVec 8) (a b : BitVec w.bits) : Instr :=
  match sg, w, a, b with
  | .u, .w8, a, b => .addwU8 bits a b
  | .u, .w16, a, b => .addwU16 bits a b
  | .u, .w32, a, b => .addwU32 bits a b
  | .u, .w64, a, b => .addwU64 bits a b
  | .u, .w128, a, b => .addwU128 bits a b
  | .i, .w8, a, b => .addwI8 bits a b
  | .i, .w16, a, b => .addwI16 bits a b
  | .i, .w32, a, b => .addwI32 bits a b
  | .i, .w64, a, b => .addwI64 bits a b
  | .i, .w128, a, b => .addwI128 bits a b

/-- The ten rows of SUBW (R152). -/
def subwRow (sg : Sign) (w : Width) (bits : BitVec 8) (a b : BitVec w.bits) : Instr :=
  match sg, w, a, b with
  | .u, .w8, a, b => .subwU8 bits a b
  | .u, .w16, a, b => .subwU16 bits a b
  | .u, .w32, a, b => .subwU32 bits a b
  | .u, .w64, a, b => .subwU64 bits a b
  | .u, .w128, a, b => .subwU128 bits a b
  | .i, .w8, a, b => .subwI8 bits a b
  | .i, .w16, a, b => .subwI16 bits a b
  | .i, .w32, a, b => .subwI32 bits a b
  | .i, .w64, a, b => .subwI64 bits a b
  | .i, .w128, a, b => .subwI128 bits a b

/-- The ten rows of MULW (R153). -/
def mulwRow (sg : Sign) (w : Width) (bits : BitVec 8) (a b : BitVec w.bits) : Instr :=
  match sg, w, a, b with
  | .u, .w8, a, b => .mulwU8 bits a b
  | .u, .w16, a, b => .mulwU16 bits a b
  | .u, .w32, a, b => .mulwU32 bits a b
  | .u, .w64, a, b => .mulwU64 bits a b
  | .u, .w128, a, b => .mulwU128 bits a b
  | .i, .w8, a, b => .mulwI8 bits a b
  | .i, .w16, a, b => .mulwI16 bits a b
  | .i, .w32, a, b => .mulwI32 bits a b
  | .i, .w64, a, b => .mulwI64 bits a b
  | .i, .w128, a, b => .mulwI128 bits a b

/-- The ten rows of ADDO (R172). -/
def addoRow (sg : Sign) (w : Width) (bits : BitVec 8) (a b : BitVec w.bits) : Instr :=
  match sg, w, a, b with
  | .u, .w8, a, b => .addoU8 bits a b
  | .u, .w16, a, b => .addoU16 bits a b
  | .u, .w32, a, b => .addoU32 bits a b
  | .u, .w64, a, b => .addoU64 bits a b
  | .u, .w128, a, b => .addoU128 bits a b
  | .i, .w8, a, b => .addoI8 bits a b
  | .i, .w16, a, b => .addoI16 bits a b
  | .i, .w32, a, b => .addoI32 bits a b
  | .i, .w64, a, b => .addoI64 bits a b
  | .i, .w128, a, b => .addoI128 bits a b

/-- The ten rows of SUBO (R173). -/
def suboRow (sg : Sign) (w : Width) (bits : BitVec 8) (a b : BitVec w.bits) : Instr :=
  match sg, w, a, b with
  | .u, .w8, a, b => .suboU8 bits a b
  | .u, .w16, a, b => .suboU16 bits a b
  | .u, .w32, a, b => .suboU32 bits a b
  | .u, .w64, a, b => .suboU64 bits a b
  | .u, .w128, a, b => .suboU128 bits a b
  | .i, .w8, a, b => .suboI8 bits a b
  | .i, .w16, a, b => .suboI16 bits a b
  | .i, .w32, a, b => .suboI32 bits a b
  | .i, .w64, a, b => .suboI64 bits a b
  | .i, .w128, a, b => .suboI128 bits a b

/-- The ten rows of MULO (R174). -/
def muloRow (sg : Sign) (w : Width) (bits : BitVec 8) (a b : BitVec w.bits) : Instr :=
  match sg, w, a, b with
  | .u, .w8, a, b => .muloU8 bits a b
  | .u, .w16, a, b => .muloU16 bits a b
  | .u, .w32, a, b => .muloU32 bits a b
  | .u, .w64, a, b => .muloU64 bits a b
  | .u, .w128, a, b => .muloU128 bits a b
  | .i, .w8, a, b => .muloI8 bits a b
  | .i, .w16, a, b => .muloI16 bits a b
  | .i, .w32, a, b => .muloI32 bits a b
  | .i, .w64, a, b => .muloI64 bits a b
  | .i, .w128, a, b => .muloI128 bits a b

/-- The ten rows of ADDS (R192). -/
def addsRow (sg : Sign) (w : Width) (bits : BitVec 8) (a b : BitVec w.bits) : Instr :=
  match sg, w, a, b with
  | .u, .w8, a, b => .addsU8 bits a b
  | .u, .w16, a, b => .addsU16 bits a b
  | .u, .w32, a, b => .addsU32 bits a b
  | .u, .w64, a, b => .addsU64 bits a b
  | .u, .w128, a, b => .addsU128 bits a b
  | .i, .w8, a, b => .addsI8 bits a b
  | .i, .w16, a, b => .addsI16 bits a b
  | .i, .w32, a, b => .addsI32 bits a b
  | .i, .w64, a, b => .addsI64 bits a b
  | .i, .w128, a, b => .addsI128 bits a b

/-- The ten rows of SUBS (R193). -/
def subsRow (sg : Sign) (w : Width) (bits : BitVec 8) (a b : BitVec w.bits) : Instr :=
  match sg, w, a, b with
  | .u, .w8, a, b => .subsU8 bits a b
  | .u, .w16, a, b => .subsU16 bits a b
  | .u, .w32, a, b => .subsU32 bits a b
  | .u, .w64, a, b => .subsU64 bits a b
  | .u, .w128, a, b => .subsU128 bits a b
  | .i, .w8, a, b => .subsI8 bits a b
  | .i, .w16, a, b => .subsI16 bits a b
  | .i, .w32, a, b => .subsI32 bits a b
  | .i, .w64, a, b => .subsI64 bits a b
  | .i, .w128, a, b => .subsI128 bits a b

/-- The ten rows of MULS (R194). -/
def mulsRow (sg : Sign) (w : Width) (bits : BitVec 8) (a b : BitVec w.bits) : Instr :=
  match sg, w, a, b with
  | .u, .w8, a, b => .mulsU8 bits a b
  | .u, .w16, a, b => .mulsU16 bits a b
  | .u, .w32, a, b => .mulsU32 bits a b
  | .u, .w64, a, b => .mulsU64 bits a b
  | .u, .w128, a, b => .mulsU128 bits a b
  | .i, .w8, a, b => .mulsI8 bits a b
  | .i, .w16, a, b => .mulsI16 bits a b
  | .i, .w32, a, b => .mulsI32 bits a b
  | .i, .w64, a, b => .mulsI64 bits a b
  | .i, .w128, a, b => .mulsI128 bits a b

/-- The ten rows of DIV_TRUNC (R211). -/
def divTruncRow (sg : Sign) (w : Width) (bits : BitVec 8) (a b : BitVec w.bits) : Instr :=
  match sg, w, a, b with
  | .u, .w8, a, b => .divTruncU8 bits a b
  | .u, .w16, a, b => .divTruncU16 bits a b
  | .u, .w32, a, b => .divTruncU32 bits a b
  | .u, .w64, a, b => .divTruncU64 bits a b
  | .u, .w128, a, b => .divTruncU128 bits a b
  | .i, .w8, a, b => .divTruncI8 bits a b
  | .i, .w16, a, b => .divTruncI16 bits a b
  | .i, .w32, a, b => .divTruncI32 bits a b
  | .i, .w64, a, b => .divTruncI64 bits a b
  | .i, .w128, a, b => .divTruncI128 bits a b

/-- The ten rows of REM (R212). -/
def remRow (sg : Sign) (w : Width) (bits : BitVec 8) (a b : BitVec w.bits) : Instr :=
  match sg, w, a, b with
  | .u, .w8, a, b => .remU8 bits a b
  | .u, .w16, a, b => .remU16 bits a b
  | .u, .w32, a, b => .remU32 bits a b
  | .u, .w64, a, b => .remU64 bits a b
  | .u, .w128, a, b => .remU128 bits a b
  | .i, .w8, a, b => .remI8 bits a b
  | .i, .w16, a, b => .remI16 bits a b
  | .i, .w32, a, b => .remI32 bits a b
  | .i, .w64, a, b => .remI64 bits a b
  | .i, .w128, a, b => .remI128 bits a b

/-- The ten rows of DIV_FLOOR (R213). -/
def divFloorRow (sg : Sign) (w : Width) (bits : BitVec 8) (a b : BitVec w.bits) : Instr :=
  match sg, w, a, b with
  | .u, .w8, a, b => .divFloorU8 bits a b
  | .u, .w16, a, b => .divFloorU16 bits a b
  | .u, .w32, a, b => .divFloorU32 bits a b
  | .u, .w64, a, b => .divFloorU64 bits a b
  | .u, .w128, a, b => .divFloorU128 bits a b
  | .i, .w8, a, b => .divFloorI8 bits a b
  | .i, .w16, a, b => .divFloorI16 bits a b
  | .i, .w32, a, b => .divFloorI32 bits a b
  | .i, .w64, a, b => .divFloorI64 bits a b
  | .i, .w128, a, b => .divFloorI128 bits a b

/-- The ten rows of MOD (R214). -/
def modRow (sg : Sign) (w : Width) (bits : BitVec 8) (a b : BitVec w.bits) : Instr :=
  match sg, w, a, b with
  | .u, .w8, a, b => .modU8 bits a b
  | .u, .w16, a, b => .modU16 bits a b
  | .u, .w32, a, b => .modU32 bits a b
  | .u, .w64, a, b => .modU64 bits a b
  | .u, .w128, a, b => .modU128 bits a b
  | .i, .w8, a, b => .modI8 bits a b
  | .i, .w16, a, b => .modI16 bits a b
  | .i, .w32, a, b => .modI32 bits a b
  | .i, .w64, a, b => .modI64 bits a b
  | .i, .w128, a, b => .modI128 bits a b

/-- The ten rows of CLZ (R272). -/
def clzRow (sg : Sign) (w : Width) (bits : BitVec 8) (a : BitVec w.bits) : Instr :=
  match sg, w, a with
  | .u, .w8, a => .clzU8 bits a
  | .u, .w16, a => .clzU16 bits a
  | .u, .w32, a => .clzU32 bits a
  | .u, .w64, a => .clzU64 bits a
  | .u, .w128, a => .clzU128 bits a
  | .i, .w8, a => .clzI8 bits a
  | .i, .w16, a => .clzI16 bits a
  | .i, .w32, a => .clzI32 bits a
  | .i, .w64, a => .clzI64 bits a
  | .i, .w128, a => .clzI128 bits a

/-- The ten rows of CTZ (R273). -/
def ctzRow (sg : Sign) (w : Width) (bits : BitVec 8) (a : BitVec w.bits) : Instr :=
  match sg, w, a with
  | .u, .w8, a => .ctzU8 bits a
  | .u, .w16, a => .ctzU16 bits a
  | .u, .w32, a => .ctzU32 bits a
  | .u, .w64, a => .ctzU64 bits a
  | .u, .w128, a => .ctzU128 bits a
  | .i, .w8, a => .ctzI8 bits a
  | .i, .w16, a => .ctzI16 bits a
  | .i, .w32, a => .ctzI32 bits a
  | .i, .w64, a => .ctzI64 bits a
  | .i, .w128, a => .ctzI128 bits a

/-- The ten rows of POPCOUNT (R274). -/
def popcountRow (sg : Sign) (w : Width) (bits : BitVec 8) (a : BitVec w.bits) : Instr :=
  match sg, w, a with
  | .u, .w8, a => .popcountU8 bits a
  | .u, .w16, a => .popcountU16 bits a
  | .u, .w32, a => .popcountU32 bits a
  | .u, .w64, a => .popcountU64 bits a
  | .u, .w128, a => .popcountU128 bits a
  | .i, .w8, a => .popcountI8 bits a
  | .i, .w16, a => .popcountI16 bits a
  | .i, .w32, a => .popcountI32 bits a
  | .i, .w64, a => .popcountI64 bits a
  | .i, .w128, a => .popcountI128 bits a

/-- The ten rows of BYTESWAP (R275). -/
def byteswapRow (sg : Sign) (w : Width) (bits : BitVec 8) (a : BitVec w.bits) : Instr :=
  match sg, w, a with
  | .u, .w8, a => .byteswapU8 bits a
  | .u, .w16, a => .byteswapU16 bits a
  | .u, .w32, a => .byteswapU32 bits a
  | .u, .w64, a => .byteswapU64 bits a
  | .u, .w128, a => .byteswapU128 bits a
  | .i, .w8, a => .byteswapI8 bits a
  | .i, .w16, a => .byteswapI16 bits a
  | .i, .w32, a => .byteswapI32 bits a
  | .i, .w64, a => .byteswapI64 bits a
  | .i, .w128, a => .byteswapI128 bits a

/-- The ten rows of BITREVERSE (R276). -/
noncomputable def bitreverseRow (sg : Sign) (w : Width) (bits : BitVec 8) (a : BitVec w.bits) : Instr :=
  match sg, w, a with
  | .u, .w8, a => .bitreverseU8 bits a
  | .u, .w16, a => .bitreverseU16 bits a
  | .u, .w32, a => .bitreverseU32 bits a
  | .u, .w64, a => .bitreverseU64 bits a
  | .u, .w128, a => .bitreverseU128 bits a
  | .i, .w8, a => .bitreverseI8 bits a
  | .i, .w16, a => .bitreverseI16 bits a
  | .i, .w32, a => .bitreverseI32 bits a
  | .i, .w64, a => .bitreverseI64 bits a
  | .i, .w128, a => .bitreverseI128 bits a

/-- The two rows of MAKE (R241). -/
noncomputable def makeRow (sg : Sign) (a b : BitVec 64) : Instr :=
  match sg with
  | .u => .makeU128 a b
  | .i => .makeI128 a b

/-- The two rows of HI (R242). -/
noncomputable def hiRow (sg : Sign) (a : BitVec 128) : Instr :=
  match sg with
  | .u => .hiU128 a
  | .i => .hiI128 a

/-- The two rows of LO (R243). -/
noncomputable def loRow (sg : Sign) (a : BitVec 128) : Instr :=
  match sg with
  | .u => .loU128 a
  | .i => .loI128 a

/-- The two rows of CMP (R244). -/
noncomputable def cmpRow (sg : Sign) (a b : BitVec 128) : Instr :=
  match sg with
  | .u => .cmpU128 a b
  | .i => .cmpI128 a b

/-! ## Fields -/

/-- The fields of a request whose control word is legal: operation, signedness, container width, LogicalWidth, and the two
operand lanes (R81, R84). -/
structure Fields where
  op : Op
  sg : Sign
  w : Width
  bits : BitVec 8
  a : BitVec 128
  b : BitVec 128
deriving DecidableEq, Repr

/-- The instruction of a row, its operands taken from the low bits of the lanes (R84, R92). -/
noncomputable def rowOf (f : Fields) : Instr :=
  match f.op with
  | .wrap => wrapRow f.sg f.w f.bits (f.a.setWidth f.w.bits)
  | .not => notRow f.sg f.w f.bits (f.a.setWidth f.w.bits)
  | .and => andRow f.sg f.w f.bits (f.a.setWidth f.w.bits) (f.b.setWidth f.w.bits)
  | .or => orRow f.sg f.w f.bits (f.a.setWidth f.w.bits) (f.b.setWidth f.w.bits)
  | .xor => xorRow f.sg f.w f.bits (f.a.setWidth f.w.bits) (f.b.setWidth f.w.bits)
  | .shl => shlRow f.sg f.w f.bits (f.a.setWidth f.w.bits) (f.b.setWidth 8)
  | .shr => shrRow f.sg f.w f.bits (f.a.setWidth f.w.bits) (f.b.setWidth 8)
  | .addw => addwRow f.sg f.w f.bits (f.a.setWidth f.w.bits) (f.b.setWidth f.w.bits)
  | .subw => subwRow f.sg f.w f.bits (f.a.setWidth f.w.bits) (f.b.setWidth f.w.bits)
  | .mulw => mulwRow f.sg f.w f.bits (f.a.setWidth f.w.bits) (f.b.setWidth f.w.bits)
  | .addo => addoRow f.sg f.w f.bits (f.a.setWidth f.w.bits) (f.b.setWidth f.w.bits)
  | .subo => suboRow f.sg f.w f.bits (f.a.setWidth f.w.bits) (f.b.setWidth f.w.bits)
  | .mulo => muloRow f.sg f.w f.bits (f.a.setWidth f.w.bits) (f.b.setWidth f.w.bits)
  | .adds => addsRow f.sg f.w f.bits (f.a.setWidth f.w.bits) (f.b.setWidth f.w.bits)
  | .subs => subsRow f.sg f.w f.bits (f.a.setWidth f.w.bits) (f.b.setWidth f.w.bits)
  | .muls => mulsRow f.sg f.w f.bits (f.a.setWidth f.w.bits) (f.b.setWidth f.w.bits)
  | .divTrunc => divTruncRow f.sg f.w f.bits (f.a.setWidth f.w.bits) (f.b.setWidth f.w.bits)
  | .rem => remRow f.sg f.w f.bits (f.a.setWidth f.w.bits) (f.b.setWidth f.w.bits)
  | .divFloor => divFloorRow f.sg f.w f.bits (f.a.setWidth f.w.bits) (f.b.setWidth f.w.bits)
  | .mod => modRow f.sg f.w f.bits (f.a.setWidth f.w.bits) (f.b.setWidth f.w.bits)
  | .clz => clzRow f.sg f.w f.bits (f.a.setWidth f.w.bits)
  | .ctz => ctzRow f.sg f.w f.bits (f.a.setWidth f.w.bits)
  | .popcount => popcountRow f.sg f.w f.bits (f.a.setWidth f.w.bits)
  | .byteswap => byteswapRow f.sg f.w f.bits (f.a.setWidth f.w.bits)
  | .bitreverse => bitreverseRow f.sg f.w f.bits (f.a.setWidth f.w.bits)
  | .make => makeRow f.sg (f.a.setWidth 64) (f.b.setWidth 64)
  | .hi => hiRow f.sg f.a
  | .lo => loRow f.sg f.a
  | .cmp => cmpRow f.sg f.a f.b

/-- The fields of an instruction; each operand is the low bits of its lane, zeros above (log entry 5). -/
def fieldsOf : Instr → Fields
  | .wrapU8 bits a => ⟨.wrap, .u, .w8, bits, (a.setWidth 128), 0#128⟩
  | .wrapU16 bits a => ⟨.wrap, .u, .w16, bits, (a.setWidth 128), 0#128⟩
  | .wrapU32 bits a => ⟨.wrap, .u, .w32, bits, (a.setWidth 128), 0#128⟩
  | .wrapU64 bits a => ⟨.wrap, .u, .w64, bits, (a.setWidth 128), 0#128⟩
  | .wrapU128 bits a => ⟨.wrap, .u, .w128, bits, (a), 0#128⟩
  | .wrapI8 bits a => ⟨.wrap, .i, .w8, bits, (a.setWidth 128), 0#128⟩
  | .wrapI16 bits a => ⟨.wrap, .i, .w16, bits, (a.setWidth 128), 0#128⟩
  | .wrapI32 bits a => ⟨.wrap, .i, .w32, bits, (a.setWidth 128), 0#128⟩
  | .wrapI64 bits a => ⟨.wrap, .i, .w64, bits, (a.setWidth 128), 0#128⟩
  | .wrapI128 bits a => ⟨.wrap, .i, .w128, bits, (a), 0#128⟩
  | .notU8 bits a => ⟨.not, .u, .w8, bits, (a.setWidth 128), 0#128⟩
  | .notU16 bits a => ⟨.not, .u, .w16, bits, (a.setWidth 128), 0#128⟩
  | .notU32 bits a => ⟨.not, .u, .w32, bits, (a.setWidth 128), 0#128⟩
  | .notU64 bits a => ⟨.not, .u, .w64, bits, (a.setWidth 128), 0#128⟩
  | .notU128 bits a => ⟨.not, .u, .w128, bits, (a), 0#128⟩
  | .notI8 bits a => ⟨.not, .i, .w8, bits, (a.setWidth 128), 0#128⟩
  | .notI16 bits a => ⟨.not, .i, .w16, bits, (a.setWidth 128), 0#128⟩
  | .notI32 bits a => ⟨.not, .i, .w32, bits, (a.setWidth 128), 0#128⟩
  | .notI64 bits a => ⟨.not, .i, .w64, bits, (a.setWidth 128), 0#128⟩
  | .notI128 bits a => ⟨.not, .i, .w128, bits, (a), 0#128⟩
  | .andU8 bits a b => ⟨.and, .u, .w8, bits, (a.setWidth 128), (b.setWidth 128)⟩
  | .andU16 bits a b => ⟨.and, .u, .w16, bits, (a.setWidth 128), (b.setWidth 128)⟩
  | .andU32 bits a b => ⟨.and, .u, .w32, bits, (a.setWidth 128), (b.setWidth 128)⟩
  | .andU64 bits a b => ⟨.and, .u, .w64, bits, (a.setWidth 128), (b.setWidth 128)⟩
  | .andU128 bits a b => ⟨.and, .u, .w128, bits, (a), (b)⟩
  | .andI8 bits a b => ⟨.and, .i, .w8, bits, (a.setWidth 128), (b.setWidth 128)⟩
  | .andI16 bits a b => ⟨.and, .i, .w16, bits, (a.setWidth 128), (b.setWidth 128)⟩
  | .andI32 bits a b => ⟨.and, .i, .w32, bits, (a.setWidth 128), (b.setWidth 128)⟩
  | .andI64 bits a b => ⟨.and, .i, .w64, bits, (a.setWidth 128), (b.setWidth 128)⟩
  | .andI128 bits a b => ⟨.and, .i, .w128, bits, (a), (b)⟩
  | .orU8 bits a b => ⟨.or, .u, .w8, bits, (a.setWidth 128), (b.setWidth 128)⟩
  | .orU16 bits a b => ⟨.or, .u, .w16, bits, (a.setWidth 128), (b.setWidth 128)⟩
  | .orU32 bits a b => ⟨.or, .u, .w32, bits, (a.setWidth 128), (b.setWidth 128)⟩
  | .orU64 bits a b => ⟨.or, .u, .w64, bits, (a.setWidth 128), (b.setWidth 128)⟩
  | .orU128 bits a b => ⟨.or, .u, .w128, bits, (a), (b)⟩
  | .orI8 bits a b => ⟨.or, .i, .w8, bits, (a.setWidth 128), (b.setWidth 128)⟩
  | .orI16 bits a b => ⟨.or, .i, .w16, bits, (a.setWidth 128), (b.setWidth 128)⟩
  | .orI32 bits a b => ⟨.or, .i, .w32, bits, (a.setWidth 128), (b.setWidth 128)⟩
  | .orI64 bits a b => ⟨.or, .i, .w64, bits, (a.setWidth 128), (b.setWidth 128)⟩
  | .orI128 bits a b => ⟨.or, .i, .w128, bits, (a), (b)⟩
  | .xorU8 bits a b => ⟨.xor, .u, .w8, bits, (a.setWidth 128), (b.setWidth 128)⟩
  | .xorU16 bits a b => ⟨.xor, .u, .w16, bits, (a.setWidth 128), (b.setWidth 128)⟩
  | .xorU32 bits a b => ⟨.xor, .u, .w32, bits, (a.setWidth 128), (b.setWidth 128)⟩
  | .xorU64 bits a b => ⟨.xor, .u, .w64, bits, (a.setWidth 128), (b.setWidth 128)⟩
  | .xorU128 bits a b => ⟨.xor, .u, .w128, bits, (a), (b)⟩
  | .xorI8 bits a b => ⟨.xor, .i, .w8, bits, (a.setWidth 128), (b.setWidth 128)⟩
  | .xorI16 bits a b => ⟨.xor, .i, .w16, bits, (a.setWidth 128), (b.setWidth 128)⟩
  | .xorI32 bits a b => ⟨.xor, .i, .w32, bits, (a.setWidth 128), (b.setWidth 128)⟩
  | .xorI64 bits a b => ⟨.xor, .i, .w64, bits, (a.setWidth 128), (b.setWidth 128)⟩
  | .xorI128 bits a b => ⟨.xor, .i, .w128, bits, (a), (b)⟩
  | .shlU8 bits a b => ⟨.shl, .u, .w8, bits, (a.setWidth 128), (b.setWidth 128)⟩
  | .shlU16 bits a b => ⟨.shl, .u, .w16, bits, (a.setWidth 128), (b.setWidth 128)⟩
  | .shlU32 bits a b => ⟨.shl, .u, .w32, bits, (a.setWidth 128), (b.setWidth 128)⟩
  | .shlU64 bits a b => ⟨.shl, .u, .w64, bits, (a.setWidth 128), (b.setWidth 128)⟩
  | .shlU128 bits a b => ⟨.shl, .u, .w128, bits, (a), (b.setWidth 128)⟩
  | .shlI8 bits a b => ⟨.shl, .i, .w8, bits, (a.setWidth 128), (b.setWidth 128)⟩
  | .shlI16 bits a b => ⟨.shl, .i, .w16, bits, (a.setWidth 128), (b.setWidth 128)⟩
  | .shlI32 bits a b => ⟨.shl, .i, .w32, bits, (a.setWidth 128), (b.setWidth 128)⟩
  | .shlI64 bits a b => ⟨.shl, .i, .w64, bits, (a.setWidth 128), (b.setWidth 128)⟩
  | .shlI128 bits a b => ⟨.shl, .i, .w128, bits, (a), (b.setWidth 128)⟩
  | .shrU8 bits a b => ⟨.shr, .u, .w8, bits, (a.setWidth 128), (b.setWidth 128)⟩
  | .shrU16 bits a b => ⟨.shr, .u, .w16, bits, (a.setWidth 128), (b.setWidth 128)⟩
  | .shrU32 bits a b => ⟨.shr, .u, .w32, bits, (a.setWidth 128), (b.setWidth 128)⟩
  | .shrU64 bits a b => ⟨.shr, .u, .w64, bits, (a.setWidth 128), (b.setWidth 128)⟩
  | .shrU128 bits a b => ⟨.shr, .u, .w128, bits, (a), (b.setWidth 128)⟩
  | .shrI8 bits a b => ⟨.shr, .i, .w8, bits, (a.setWidth 128), (b.setWidth 128)⟩
  | .shrI16 bits a b => ⟨.shr, .i, .w16, bits, (a.setWidth 128), (b.setWidth 128)⟩
  | .shrI32 bits a b => ⟨.shr, .i, .w32, bits, (a.setWidth 128), (b.setWidth 128)⟩
  | .shrI64 bits a b => ⟨.shr, .i, .w64, bits, (a.setWidth 128), (b.setWidth 128)⟩
  | .shrI128 bits a b => ⟨.shr, .i, .w128, bits, (a), (b.setWidth 128)⟩
  | .addwU8 bits a b => ⟨.addw, .u, .w8, bits, (a.setWidth 128), (b.setWidth 128)⟩
  | .addwU16 bits a b => ⟨.addw, .u, .w16, bits, (a.setWidth 128), (b.setWidth 128)⟩
  | .addwU32 bits a b => ⟨.addw, .u, .w32, bits, (a.setWidth 128), (b.setWidth 128)⟩
  | .addwU64 bits a b => ⟨.addw, .u, .w64, bits, (a.setWidth 128), (b.setWidth 128)⟩
  | .addwU128 bits a b => ⟨.addw, .u, .w128, bits, (a), (b)⟩
  | .addwI8 bits a b => ⟨.addw, .i, .w8, bits, (a.setWidth 128), (b.setWidth 128)⟩
  | .addwI16 bits a b => ⟨.addw, .i, .w16, bits, (a.setWidth 128), (b.setWidth 128)⟩
  | .addwI32 bits a b => ⟨.addw, .i, .w32, bits, (a.setWidth 128), (b.setWidth 128)⟩
  | .addwI64 bits a b => ⟨.addw, .i, .w64, bits, (a.setWidth 128), (b.setWidth 128)⟩
  | .addwI128 bits a b => ⟨.addw, .i, .w128, bits, (a), (b)⟩
  | .subwU8 bits a b => ⟨.subw, .u, .w8, bits, (a.setWidth 128), (b.setWidth 128)⟩
  | .subwU16 bits a b => ⟨.subw, .u, .w16, bits, (a.setWidth 128), (b.setWidth 128)⟩
  | .subwU32 bits a b => ⟨.subw, .u, .w32, bits, (a.setWidth 128), (b.setWidth 128)⟩
  | .subwU64 bits a b => ⟨.subw, .u, .w64, bits, (a.setWidth 128), (b.setWidth 128)⟩
  | .subwU128 bits a b => ⟨.subw, .u, .w128, bits, (a), (b)⟩
  | .subwI8 bits a b => ⟨.subw, .i, .w8, bits, (a.setWidth 128), (b.setWidth 128)⟩
  | .subwI16 bits a b => ⟨.subw, .i, .w16, bits, (a.setWidth 128), (b.setWidth 128)⟩
  | .subwI32 bits a b => ⟨.subw, .i, .w32, bits, (a.setWidth 128), (b.setWidth 128)⟩
  | .subwI64 bits a b => ⟨.subw, .i, .w64, bits, (a.setWidth 128), (b.setWidth 128)⟩
  | .subwI128 bits a b => ⟨.subw, .i, .w128, bits, (a), (b)⟩
  | .mulwU8 bits a b => ⟨.mulw, .u, .w8, bits, (a.setWidth 128), (b.setWidth 128)⟩
  | .mulwU16 bits a b => ⟨.mulw, .u, .w16, bits, (a.setWidth 128), (b.setWidth 128)⟩
  | .mulwU32 bits a b => ⟨.mulw, .u, .w32, bits, (a.setWidth 128), (b.setWidth 128)⟩
  | .mulwU64 bits a b => ⟨.mulw, .u, .w64, bits, (a.setWidth 128), (b.setWidth 128)⟩
  | .mulwU128 bits a b => ⟨.mulw, .u, .w128, bits, (a), (b)⟩
  | .mulwI8 bits a b => ⟨.mulw, .i, .w8, bits, (a.setWidth 128), (b.setWidth 128)⟩
  | .mulwI16 bits a b => ⟨.mulw, .i, .w16, bits, (a.setWidth 128), (b.setWidth 128)⟩
  | .mulwI32 bits a b => ⟨.mulw, .i, .w32, bits, (a.setWidth 128), (b.setWidth 128)⟩
  | .mulwI64 bits a b => ⟨.mulw, .i, .w64, bits, (a.setWidth 128), (b.setWidth 128)⟩
  | .mulwI128 bits a b => ⟨.mulw, .i, .w128, bits, (a), (b)⟩
  | .addoU8 bits a b => ⟨.addo, .u, .w8, bits, (a.setWidth 128), (b.setWidth 128)⟩
  | .addoU16 bits a b => ⟨.addo, .u, .w16, bits, (a.setWidth 128), (b.setWidth 128)⟩
  | .addoU32 bits a b => ⟨.addo, .u, .w32, bits, (a.setWidth 128), (b.setWidth 128)⟩
  | .addoU64 bits a b => ⟨.addo, .u, .w64, bits, (a.setWidth 128), (b.setWidth 128)⟩
  | .addoU128 bits a b => ⟨.addo, .u, .w128, bits, (a), (b)⟩
  | .addoI8 bits a b => ⟨.addo, .i, .w8, bits, (a.setWidth 128), (b.setWidth 128)⟩
  | .addoI16 bits a b => ⟨.addo, .i, .w16, bits, (a.setWidth 128), (b.setWidth 128)⟩
  | .addoI32 bits a b => ⟨.addo, .i, .w32, bits, (a.setWidth 128), (b.setWidth 128)⟩
  | .addoI64 bits a b => ⟨.addo, .i, .w64, bits, (a.setWidth 128), (b.setWidth 128)⟩
  | .addoI128 bits a b => ⟨.addo, .i, .w128, bits, (a), (b)⟩
  | .suboU8 bits a b => ⟨.subo, .u, .w8, bits, (a.setWidth 128), (b.setWidth 128)⟩
  | .suboU16 bits a b => ⟨.subo, .u, .w16, bits, (a.setWidth 128), (b.setWidth 128)⟩
  | .suboU32 bits a b => ⟨.subo, .u, .w32, bits, (a.setWidth 128), (b.setWidth 128)⟩
  | .suboU64 bits a b => ⟨.subo, .u, .w64, bits, (a.setWidth 128), (b.setWidth 128)⟩
  | .suboU128 bits a b => ⟨.subo, .u, .w128, bits, (a), (b)⟩
  | .suboI8 bits a b => ⟨.subo, .i, .w8, bits, (a.setWidth 128), (b.setWidth 128)⟩
  | .suboI16 bits a b => ⟨.subo, .i, .w16, bits, (a.setWidth 128), (b.setWidth 128)⟩
  | .suboI32 bits a b => ⟨.subo, .i, .w32, bits, (a.setWidth 128), (b.setWidth 128)⟩
  | .suboI64 bits a b => ⟨.subo, .i, .w64, bits, (a.setWidth 128), (b.setWidth 128)⟩
  | .suboI128 bits a b => ⟨.subo, .i, .w128, bits, (a), (b)⟩
  | .muloU8 bits a b => ⟨.mulo, .u, .w8, bits, (a.setWidth 128), (b.setWidth 128)⟩
  | .muloU16 bits a b => ⟨.mulo, .u, .w16, bits, (a.setWidth 128), (b.setWidth 128)⟩
  | .muloU32 bits a b => ⟨.mulo, .u, .w32, bits, (a.setWidth 128), (b.setWidth 128)⟩
  | .muloU64 bits a b => ⟨.mulo, .u, .w64, bits, (a.setWidth 128), (b.setWidth 128)⟩
  | .muloU128 bits a b => ⟨.mulo, .u, .w128, bits, (a), (b)⟩
  | .muloI8 bits a b => ⟨.mulo, .i, .w8, bits, (a.setWidth 128), (b.setWidth 128)⟩
  | .muloI16 bits a b => ⟨.mulo, .i, .w16, bits, (a.setWidth 128), (b.setWidth 128)⟩
  | .muloI32 bits a b => ⟨.mulo, .i, .w32, bits, (a.setWidth 128), (b.setWidth 128)⟩
  | .muloI64 bits a b => ⟨.mulo, .i, .w64, bits, (a.setWidth 128), (b.setWidth 128)⟩
  | .muloI128 bits a b => ⟨.mulo, .i, .w128, bits, (a), (b)⟩
  | .addsU8 bits a b => ⟨.adds, .u, .w8, bits, (a.setWidth 128), (b.setWidth 128)⟩
  | .addsU16 bits a b => ⟨.adds, .u, .w16, bits, (a.setWidth 128), (b.setWidth 128)⟩
  | .addsU32 bits a b => ⟨.adds, .u, .w32, bits, (a.setWidth 128), (b.setWidth 128)⟩
  | .addsU64 bits a b => ⟨.adds, .u, .w64, bits, (a.setWidth 128), (b.setWidth 128)⟩
  | .addsU128 bits a b => ⟨.adds, .u, .w128, bits, (a), (b)⟩
  | .addsI8 bits a b => ⟨.adds, .i, .w8, bits, (a.setWidth 128), (b.setWidth 128)⟩
  | .addsI16 bits a b => ⟨.adds, .i, .w16, bits, (a.setWidth 128), (b.setWidth 128)⟩
  | .addsI32 bits a b => ⟨.adds, .i, .w32, bits, (a.setWidth 128), (b.setWidth 128)⟩
  | .addsI64 bits a b => ⟨.adds, .i, .w64, bits, (a.setWidth 128), (b.setWidth 128)⟩
  | .addsI128 bits a b => ⟨.adds, .i, .w128, bits, (a), (b)⟩
  | .subsU8 bits a b => ⟨.subs, .u, .w8, bits, (a.setWidth 128), (b.setWidth 128)⟩
  | .subsU16 bits a b => ⟨.subs, .u, .w16, bits, (a.setWidth 128), (b.setWidth 128)⟩
  | .subsU32 bits a b => ⟨.subs, .u, .w32, bits, (a.setWidth 128), (b.setWidth 128)⟩
  | .subsU64 bits a b => ⟨.subs, .u, .w64, bits, (a.setWidth 128), (b.setWidth 128)⟩
  | .subsU128 bits a b => ⟨.subs, .u, .w128, bits, (a), (b)⟩
  | .subsI8 bits a b => ⟨.subs, .i, .w8, bits, (a.setWidth 128), (b.setWidth 128)⟩
  | .subsI16 bits a b => ⟨.subs, .i, .w16, bits, (a.setWidth 128), (b.setWidth 128)⟩
  | .subsI32 bits a b => ⟨.subs, .i, .w32, bits, (a.setWidth 128), (b.setWidth 128)⟩
  | .subsI64 bits a b => ⟨.subs, .i, .w64, bits, (a.setWidth 128), (b.setWidth 128)⟩
  | .subsI128 bits a b => ⟨.subs, .i, .w128, bits, (a), (b)⟩
  | .mulsU8 bits a b => ⟨.muls, .u, .w8, bits, (a.setWidth 128), (b.setWidth 128)⟩
  | .mulsU16 bits a b => ⟨.muls, .u, .w16, bits, (a.setWidth 128), (b.setWidth 128)⟩
  | .mulsU32 bits a b => ⟨.muls, .u, .w32, bits, (a.setWidth 128), (b.setWidth 128)⟩
  | .mulsU64 bits a b => ⟨.muls, .u, .w64, bits, (a.setWidth 128), (b.setWidth 128)⟩
  | .mulsU128 bits a b => ⟨.muls, .u, .w128, bits, (a), (b)⟩
  | .mulsI8 bits a b => ⟨.muls, .i, .w8, bits, (a.setWidth 128), (b.setWidth 128)⟩
  | .mulsI16 bits a b => ⟨.muls, .i, .w16, bits, (a.setWidth 128), (b.setWidth 128)⟩
  | .mulsI32 bits a b => ⟨.muls, .i, .w32, bits, (a.setWidth 128), (b.setWidth 128)⟩
  | .mulsI64 bits a b => ⟨.muls, .i, .w64, bits, (a.setWidth 128), (b.setWidth 128)⟩
  | .mulsI128 bits a b => ⟨.muls, .i, .w128, bits, (a), (b)⟩
  | .divTruncU8 bits a b => ⟨.divTrunc, .u, .w8, bits, (a.setWidth 128), (b.setWidth 128)⟩
  | .divTruncU16 bits a b => ⟨.divTrunc, .u, .w16, bits, (a.setWidth 128), (b.setWidth 128)⟩
  | .divTruncU32 bits a b => ⟨.divTrunc, .u, .w32, bits, (a.setWidth 128), (b.setWidth 128)⟩
  | .divTruncU64 bits a b => ⟨.divTrunc, .u, .w64, bits, (a.setWidth 128), (b.setWidth 128)⟩
  | .divTruncU128 bits a b => ⟨.divTrunc, .u, .w128, bits, (a), (b)⟩
  | .divTruncI8 bits a b => ⟨.divTrunc, .i, .w8, bits, (a.setWidth 128), (b.setWidth 128)⟩
  | .divTruncI16 bits a b => ⟨.divTrunc, .i, .w16, bits, (a.setWidth 128), (b.setWidth 128)⟩
  | .divTruncI32 bits a b => ⟨.divTrunc, .i, .w32, bits, (a.setWidth 128), (b.setWidth 128)⟩
  | .divTruncI64 bits a b => ⟨.divTrunc, .i, .w64, bits, (a.setWidth 128), (b.setWidth 128)⟩
  | .divTruncI128 bits a b => ⟨.divTrunc, .i, .w128, bits, (a), (b)⟩
  | .remU8 bits a b => ⟨.rem, .u, .w8, bits, (a.setWidth 128), (b.setWidth 128)⟩
  | .remU16 bits a b => ⟨.rem, .u, .w16, bits, (a.setWidth 128), (b.setWidth 128)⟩
  | .remU32 bits a b => ⟨.rem, .u, .w32, bits, (a.setWidth 128), (b.setWidth 128)⟩
  | .remU64 bits a b => ⟨.rem, .u, .w64, bits, (a.setWidth 128), (b.setWidth 128)⟩
  | .remU128 bits a b => ⟨.rem, .u, .w128, bits, (a), (b)⟩
  | .remI8 bits a b => ⟨.rem, .i, .w8, bits, (a.setWidth 128), (b.setWidth 128)⟩
  | .remI16 bits a b => ⟨.rem, .i, .w16, bits, (a.setWidth 128), (b.setWidth 128)⟩
  | .remI32 bits a b => ⟨.rem, .i, .w32, bits, (a.setWidth 128), (b.setWidth 128)⟩
  | .remI64 bits a b => ⟨.rem, .i, .w64, bits, (a.setWidth 128), (b.setWidth 128)⟩
  | .remI128 bits a b => ⟨.rem, .i, .w128, bits, (a), (b)⟩
  | .divFloorU8 bits a b => ⟨.divFloor, .u, .w8, bits, (a.setWidth 128), (b.setWidth 128)⟩
  | .divFloorU16 bits a b => ⟨.divFloor, .u, .w16, bits, (a.setWidth 128), (b.setWidth 128)⟩
  | .divFloorU32 bits a b => ⟨.divFloor, .u, .w32, bits, (a.setWidth 128), (b.setWidth 128)⟩
  | .divFloorU64 bits a b => ⟨.divFloor, .u, .w64, bits, (a.setWidth 128), (b.setWidth 128)⟩
  | .divFloorU128 bits a b => ⟨.divFloor, .u, .w128, bits, (a), (b)⟩
  | .divFloorI8 bits a b => ⟨.divFloor, .i, .w8, bits, (a.setWidth 128), (b.setWidth 128)⟩
  | .divFloorI16 bits a b => ⟨.divFloor, .i, .w16, bits, (a.setWidth 128), (b.setWidth 128)⟩
  | .divFloorI32 bits a b => ⟨.divFloor, .i, .w32, bits, (a.setWidth 128), (b.setWidth 128)⟩
  | .divFloorI64 bits a b => ⟨.divFloor, .i, .w64, bits, (a.setWidth 128), (b.setWidth 128)⟩
  | .divFloorI128 bits a b => ⟨.divFloor, .i, .w128, bits, (a), (b)⟩
  | .modU8 bits a b => ⟨.mod, .u, .w8, bits, (a.setWidth 128), (b.setWidth 128)⟩
  | .modU16 bits a b => ⟨.mod, .u, .w16, bits, (a.setWidth 128), (b.setWidth 128)⟩
  | .modU32 bits a b => ⟨.mod, .u, .w32, bits, (a.setWidth 128), (b.setWidth 128)⟩
  | .modU64 bits a b => ⟨.mod, .u, .w64, bits, (a.setWidth 128), (b.setWidth 128)⟩
  | .modU128 bits a b => ⟨.mod, .u, .w128, bits, (a), (b)⟩
  | .modI8 bits a b => ⟨.mod, .i, .w8, bits, (a.setWidth 128), (b.setWidth 128)⟩
  | .modI16 bits a b => ⟨.mod, .i, .w16, bits, (a.setWidth 128), (b.setWidth 128)⟩
  | .modI32 bits a b => ⟨.mod, .i, .w32, bits, (a.setWidth 128), (b.setWidth 128)⟩
  | .modI64 bits a b => ⟨.mod, .i, .w64, bits, (a.setWidth 128), (b.setWidth 128)⟩
  | .modI128 bits a b => ⟨.mod, .i, .w128, bits, (a), (b)⟩
  | .clzU8 bits a => ⟨.clz, .u, .w8, bits, (a.setWidth 128), 0#128⟩
  | .clzU16 bits a => ⟨.clz, .u, .w16, bits, (a.setWidth 128), 0#128⟩
  | .clzU32 bits a => ⟨.clz, .u, .w32, bits, (a.setWidth 128), 0#128⟩
  | .clzU64 bits a => ⟨.clz, .u, .w64, bits, (a.setWidth 128), 0#128⟩
  | .clzU128 bits a => ⟨.clz, .u, .w128, bits, (a), 0#128⟩
  | .clzI8 bits a => ⟨.clz, .i, .w8, bits, (a.setWidth 128), 0#128⟩
  | .clzI16 bits a => ⟨.clz, .i, .w16, bits, (a.setWidth 128), 0#128⟩
  | .clzI32 bits a => ⟨.clz, .i, .w32, bits, (a.setWidth 128), 0#128⟩
  | .clzI64 bits a => ⟨.clz, .i, .w64, bits, (a.setWidth 128), 0#128⟩
  | .clzI128 bits a => ⟨.clz, .i, .w128, bits, (a), 0#128⟩
  | .ctzU8 bits a => ⟨.ctz, .u, .w8, bits, (a.setWidth 128), 0#128⟩
  | .ctzU16 bits a => ⟨.ctz, .u, .w16, bits, (a.setWidth 128), 0#128⟩
  | .ctzU32 bits a => ⟨.ctz, .u, .w32, bits, (a.setWidth 128), 0#128⟩
  | .ctzU64 bits a => ⟨.ctz, .u, .w64, bits, (a.setWidth 128), 0#128⟩
  | .ctzU128 bits a => ⟨.ctz, .u, .w128, bits, (a), 0#128⟩
  | .ctzI8 bits a => ⟨.ctz, .i, .w8, bits, (a.setWidth 128), 0#128⟩
  | .ctzI16 bits a => ⟨.ctz, .i, .w16, bits, (a.setWidth 128), 0#128⟩
  | .ctzI32 bits a => ⟨.ctz, .i, .w32, bits, (a.setWidth 128), 0#128⟩
  | .ctzI64 bits a => ⟨.ctz, .i, .w64, bits, (a.setWidth 128), 0#128⟩
  | .ctzI128 bits a => ⟨.ctz, .i, .w128, bits, (a), 0#128⟩
  | .popcountU8 bits a => ⟨.popcount, .u, .w8, bits, (a.setWidth 128), 0#128⟩
  | .popcountU16 bits a => ⟨.popcount, .u, .w16, bits, (a.setWidth 128), 0#128⟩
  | .popcountU32 bits a => ⟨.popcount, .u, .w32, bits, (a.setWidth 128), 0#128⟩
  | .popcountU64 bits a => ⟨.popcount, .u, .w64, bits, (a.setWidth 128), 0#128⟩
  | .popcountU128 bits a => ⟨.popcount, .u, .w128, bits, (a), 0#128⟩
  | .popcountI8 bits a => ⟨.popcount, .i, .w8, bits, (a.setWidth 128), 0#128⟩
  | .popcountI16 bits a => ⟨.popcount, .i, .w16, bits, (a.setWidth 128), 0#128⟩
  | .popcountI32 bits a => ⟨.popcount, .i, .w32, bits, (a.setWidth 128), 0#128⟩
  | .popcountI64 bits a => ⟨.popcount, .i, .w64, bits, (a.setWidth 128), 0#128⟩
  | .popcountI128 bits a => ⟨.popcount, .i, .w128, bits, (a), 0#128⟩
  | .byteswapU8 bits a => ⟨.byteswap, .u, .w8, bits, (a.setWidth 128), 0#128⟩
  | .byteswapU16 bits a => ⟨.byteswap, .u, .w16, bits, (a.setWidth 128), 0#128⟩
  | .byteswapU32 bits a => ⟨.byteswap, .u, .w32, bits, (a.setWidth 128), 0#128⟩
  | .byteswapU64 bits a => ⟨.byteswap, .u, .w64, bits, (a.setWidth 128), 0#128⟩
  | .byteswapU128 bits a => ⟨.byteswap, .u, .w128, bits, (a), 0#128⟩
  | .byteswapI8 bits a => ⟨.byteswap, .i, .w8, bits, (a.setWidth 128), 0#128⟩
  | .byteswapI16 bits a => ⟨.byteswap, .i, .w16, bits, (a.setWidth 128), 0#128⟩
  | .byteswapI32 bits a => ⟨.byteswap, .i, .w32, bits, (a.setWidth 128), 0#128⟩
  | .byteswapI64 bits a => ⟨.byteswap, .i, .w64, bits, (a.setWidth 128), 0#128⟩
  | .byteswapI128 bits a => ⟨.byteswap, .i, .w128, bits, (a), 0#128⟩
  | .bitreverseU8 bits a => ⟨.bitreverse, .u, .w8, bits, (a.setWidth 128), 0#128⟩
  | .bitreverseU16 bits a => ⟨.bitreverse, .u, .w16, bits, (a.setWidth 128), 0#128⟩
  | .bitreverseU32 bits a => ⟨.bitreverse, .u, .w32, bits, (a.setWidth 128), 0#128⟩
  | .bitreverseU64 bits a => ⟨.bitreverse, .u, .w64, bits, (a.setWidth 128), 0#128⟩
  | .bitreverseU128 bits a => ⟨.bitreverse, .u, .w128, bits, (a), 0#128⟩
  | .bitreverseI8 bits a => ⟨.bitreverse, .i, .w8, bits, (a.setWidth 128), 0#128⟩
  | .bitreverseI16 bits a => ⟨.bitreverse, .i, .w16, bits, (a.setWidth 128), 0#128⟩
  | .bitreverseI32 bits a => ⟨.bitreverse, .i, .w32, bits, (a.setWidth 128), 0#128⟩
  | .bitreverseI64 bits a => ⟨.bitreverse, .i, .w64, bits, (a.setWidth 128), 0#128⟩
  | .bitreverseI128 bits a => ⟨.bitreverse, .i, .w128, bits, (a), 0#128⟩
  | .makeU128 a b => ⟨.make, .u, .w128, 0#8, (a.setWidth 128), (b.setWidth 128)⟩
  | .makeI128 a b => ⟨.make, .i, .w128, 0#8, (a.setWidth 128), (b.setWidth 128)⟩
  | .hiU128 a => ⟨.hi, .u, .w128, 0#8, (a), 0#128⟩
  | .hiI128 a => ⟨.hi, .i, .w128, 0#8, (a), 0#128⟩
  | .loU128 a => ⟨.lo, .u, .w128, 0#8, (a), 0#128⟩
  | .loI128 a => ⟨.lo, .i, .w128, 0#8, (a), 0#128⟩
  | .cmpU128 a b => ⟨.cmp, .u, .w128, 0#8, (a), (b)⟩
  | .cmpI128 a b => ⟨.cmp, .i, .w128, 0#8, (a), (b)⟩

/-! ## The control word -/

/-- `CW = OP | (S << 6) | (W << 7) | (BITS << 10)` (R81). -/
def packWord (op : BitVec 6) (sg : BitVec 1) (w : BitVec 3) (bits : BitVec 8) : ControlWord :=
  op.setWidth 32 ||| sg.setWidth 32 <<< 6 ||| w.setWidth 32 <<< 7 ||| bits.setWidth 32 <<< 10

/-- OP, CW[5:0] (R81). -/
def opField (cw : ControlWord) : BitVec 6 := cw.extractLsb' 0 6

/-- S, CW[6] (R81). -/
def signField (cw : ControlWord) : BitVec 1 := cw.extractLsb' 6 1

/-- W, CW[9:7] (R81). -/
def widthField (cw : ControlWord) : BitVec 3 := cw.extractLsb' 7 3

/-- BITS, CW[17:10] (R81). -/
def bitsField (cw : ControlWord) : BitVec 8 := cw.extractLsb' 10 8

/-- The reserved field, CW[31:18] (R81). -/
def reservedField (cw : ControlWord) : BitVec 14 := cw.extractLsb' 18 14

/-- Rows 4 to 6 of R310: the operation of a control word whose reserved field, W and OP are found legal so far. -/
def decodeOp (cw : ControlWord) (w : Width) : Except FaultCode Op :=
  match opOfCode (opField cw) with
  | none => .error .illegalEncoding
  | some op =>
    if op.only128 && (w != .w128 || bitsField cw != 0#8) then .error .illegalEncoding else .ok op

/-- Rows 1 to 6 of R310: the fields of a request, or the fault its control word raises. -/
def decodeFields (r : Request) : Except FaultCode Fields :=
  if reservedField r.cw ≠ 0#14 then .error .illegalEncoding
  else
    match widthOfCode (widthField r.cw) with
    | none => .error .illegalEncoding
    | some w =>
      if reservedOp (opField r.cw) then .error .reservedOp
      else
        match decodeOp r.cw w with
        | .error c => .error c
        | .ok op => .ok ⟨op, signOfBit (signField r.cw), w, bitsField r.cw, r.a, r.b⟩

/-- The decoder: the instruction a request names, or the fault its control word raises (R88 to R91). -/
noncomputable def decode (r : Request) : Except FaultCode Instr :=
  match decodeFields r with
  | .error c => .error c
  | .ok f => .ok (rowOf f)

/-- The encoder: the request that names an instruction (R81). -/
def encode (i : Instr) : Request :=
  let f := fieldsOf i
  ⟨packWord (opCode f.op) (signBit f.sg) (widthCode f.w) f.bits, f.a, f.b⟩

/-- A request as one number: the control word in bits 31:0, lane A in bits 159:32, lane B in bits 287:160 (DESIGN CHOICE,
safe: log entry 5). Bits at and above `nbits` are 0. -/
def requestOfNat (nbits w : Nat) : Request :=
  let v := w % 2 ^ nbits
  ⟨BitVec.ofNat 32 v, BitVec.ofNat 128 (v / 2 ^ 32), BitVec.ofNat 128 (v / 2 ^ 160)⟩

/-- The instruction the decoder reads from a request given as one number. -/
noncomputable def decodeTableWord (nbits w : Nat) : Option Instr :=
  match decode (requestOfNat nbits w) with
  | .ok i => some i
  | .error _ => none

end Sys2Proof
end

