-- ==== Sys2Proof/Machine/Ops.lean ====
section
/-!
DEFINITION. The named operations over the state: fault entry (60_exceptions.md R312), the response of a request (R44, R310),
host reads (10_state.md R36 to R38) and reset (R340). There is no memory (20_memory.md R60) and no return from a fault
other than reset (R314).
-/

namespace Sys2Proof.Machine

/-- The number FAULT holds for each fault (R300). -/
def FaultCode.code : FaultCode → BitVec 8
  | .illegalEncoding => 0x01#8
  | .reservedOp => 0x02#8
  | .badLogicalWidth => 0x03#8
  | .byteSwapWidth => 0x04#8
  | .nonCanonicalOperand => 0x05#8
  | .shiftAmountOutOfRange => 0x06#8
  | .divideByZero => 0x07#8
  | .divideOverflow => 0x08#8
  | .badRead => 0x09#8

/-- CFG as the 8-bit register a host reads: NATIVE_INT128 in bit 0, HW_OVF in bit 1, BITOP8 to BITOP128 in bits 2 to 6,
and 0 in bit 7 (R35). -/
def cfgByte (c : Cfg) : BitVec 8 :=
  0#1 ++ (BitVec.ofBool c.bitop128) ++ (BitVec.ofBool c.bitop64) ++ (BitVec.ofBool c.bitop32) ++
    (BitVec.ofBool c.bitop16) ++ (BitVec.ofBool c.bitop8) ++ (BitVec.ofBool c.hwOvf) ++ (BitVec.ofBool c.nativeInt128)

/-- Taking a fault, the one operation that does so (R312): FAULT takes the code if it holds 0x00 and keeps the first code
otherwise; RES and OVF are left holding no value; nothing else changes. -/
def raiseFault (c : FaultCode) (s : State) : State :=
  { s with fault := if s.fault = 0x00#8 then c.code else s.fault, res := none, ovf := none }

/-- The block accepts a request only while FAULT is 0x00; otherwise it has no step (R44, R313). -/
def accept (s : State) (k : State → Result) : Result :=
  if s.fault = 0x00#8 then k s else .fault .requestNotAccepted

/-- The first check that applies, in the order of the list (R310, R311). -/
def firstFault : List (Bool × FaultCode) → Option FaultCode
  | [] => none
  | (applies, c) :: rest => if applies then some c else firstFault rest

/-- The success response: RES takes the result, OVF the flag, or no value where the operation writes none (R32, R33). -/
def complete (res : Latch) (ovf : Option Bool) (s : State) : State :=
  { s with res := some res, ovf := ovf }

/-- One request whose control word is legal: it is accepted, checked, and either faults or completes, in one step (R44). -/
def serve (checks : List (Bool × FaultCode)) (res : Latch) (ovf : Option Bool) (s : State) : Result :=
  accept s fun s =>
    match firstFault checks with
    | some c => .next (raiseFault c s)
    | none => .next (complete res ovf s)

/-- One request whose control word is not legal: accepted, and answered with the decoder's fault (R301, R302). -/
def rejectRequest (c : FaultCode) (s : State) : Result :=
  accept s fun s => .next (raiseFault c s)

/-- The value a read of register `n` returns (R36): 0 RES, 1 OVF, 2 FAULT, 3 CFG. A latch that holds no value, and a number
that names no register, has none (R37). -/
def readRegister (n : BitVec 8) (s : State) : Option ReadValue :=
  match n.toNat with
  | 0 => s.res.map ReadValue.latch
  | 1 => s.ovf.map ReadValue.flag
  | 2 => some (.byte s.fault)
  | 3 => some (.byte (cfgByte s.cfg))
  | _ => none

/-- A host read (R37, R38): it returns the value and changes nothing, or raises BadRead where there is no value. -/
def hostRead (n : BitVec 8) (s : State) : State :=
  match readRegister n s with
  | some v => { s with readValue := some v }
  | none => raiseFault .badRead { s with readValue := none }

/-- Reset, one step between requests (R340): the block is in the state of R43. What the host has still to do is the host's
and stays (log entry 1). -/
def resetBlock (s : State) : State :=
  { State.reset with host := s.host }

/-- The host's next action, and the state in which the block meets it (log entry 1). -/
def nextAction (s : State) : Option (HostAction × State) :=
  match s.host with
  | [] => none
  | a :: rest => some (a, { s with host := rest })

/-- A step at which the host makes no action: an unfaulted block stays as it is, since only requests, reads and reset change
state (R36, R42); a faulted one has no step (R44). DESIGN CHOICE, safe (log entry 2). -/
def idle (s : State) : Result :=
  if s.fault = 0x00#8 then .next s else .fault .faultedIdle

end Sys2Proof.Machine
end

