-- ==== Sys2Proof/Machine/Operands.lean ====
section
/-!
DEFINITION. How operands are read and results encoded (00_scope.md R15 to R21), and the checks on operands
(30_encoding.md R86, R92, R93; 60_exceptions.md R310, rows 7 to 13).
-/

namespace Sys2Proof.Machine

/-- `val_s(x)`: the unsigned or two's-complement value of a container (R15). -/
def val (sg : Sign) {n : Nat} (x : BitVec n) : Int :=
  match sg with
  | .u => (x.toNat : Int)
  | .i => x.toInt

/-- `enc_N(v)`: the N-bit vector whose unsigned value is v mod 2^N (R16). -/
def enc (n : Nat) (v : Int) : BitVec n := BitVec.ofInt n v

/-- `minInt(s, bits)` (R17). -/
def minInt (sg : Sign) (bits : Nat) : Int :=
  match sg with
  | .u => 0
  | .i => -(2 ^ (bits - 1) : Nat)

/-- `maxInt(s, bits)` (R17). -/
def maxInt (sg : Sign) (bits : Nat) : Int :=
  match sg with
  | .u => (2 ^ bits : Nat) - 1
  | .i => (2 ^ (bits - 1) : Nat) - 1

/-- `wrapv(s, bits, v)`: v reduced modulo 2^bits into the range of (s, bits) (R18). -/
def wrapv (sg : Sign) (bits : Nat) (v : Int) : Int :=
  match sg with
  | .u => v % (2 ^ bits : Nat)
  | .i => Int.bmod v (2 ^ bits)

/-- `clamp(s, bits, v)` (R19). -/
def clamp (sg : Sign) (bits : Nat) (v : Int) : Int :=
  if v < minInt sg bits then minInt sg bits else if maxInt sg bits < v then maxInt sg bits else v

/-- A container value is canonical for (s, bits) when its value lies in the range of (s, bits) (R20). -/
def canonical (sg : Sign) (bits : Nat) {n : Nat} (x : BitVec n) : Bool :=
  decide (minInt sg bits ≤ val sg x) && decide (val sg x ≤ maxInt sg bits)

/-- `x[bits-1:0]`, the low `bits` bits (R14). -/
def lowBits (bits : Nat) {n : Nat} (x : BitVec n) : BitVec bits := x.extractLsb' 0 bits

/-- `zext_N` for s = u and `sext_N` for s = i (R16). -/
def extend (sg : Sign) (n : Nat) {bits : Nat} (y : BitVec bits) : BitVec n :=
  match sg with
  | .u => y.setWidth n
  | .i => y.signExtend n

/-- `tdiv(a, b)`: a/b rounded toward zero (R21). -/
def tdiv (a b : Int) : Int := Int.tdiv a b

/-- `trem(a, b) = a - b * tdiv(a, b)` (R21). -/
def trem (a b : Int) : Int := a - b * tdiv a b

/-- `fdiv(a, b)`: a/b rounded toward negative infinity (R21). -/
def fdiv (a b : Int) : Int := Int.fdiv a b

/-- `fmod(a, b) = a - b * fdiv(a, b)` (R21). -/
def fmod (a b : Int) : Int := a - b * fdiv a b

/-- Row 7 of R310: bits = 0 or bits > N (R86, R303). -/
def widthCheck (n bits : Nat) : Bool × FaultCode :=
  (decide (bits = 0) || decide (n < bits), .badLogicalWidth)

/-- Row 8 of R310: BYTESWAP with bits not a multiple of 8 (R304). -/
def byteMultipleCheck (bits : Nat) : Bool × FaultCode :=
  (decide (bits % 8 ≠ 0), .byteSwapWidth)

/-- Rows 9 and 10 of R310: an N-bit operand that is not canonical (R93, R305). -/
def canonicalCheck (sg : Sign) (bits : Nat) {n : Nat} (x : BitVec n) : Bool × FaultCode :=
  (!canonical sg bits x, .nonCanonicalOperand)

/-- Row 11 of R310: a shift amount of N or more (R306). The amount is read unsigned at every S (R92). -/
def shiftCheck (n : Nat) (amt : BitVec 8) : Bool × FaultCode :=
  (decide (n ≤ amt.toNat), .shiftAmountOutOfRange)

/-- Row 12 of R310: a zero divisor (R307). -/
def zeroDivisorCheck (sg : Sign) {n : Nat} (b : BitVec n) : Bool × FaultCode :=
  (decide (val sg b = 0), .divideByZero)

/-- Row 13 of R310: s = i, dividend minInt(i, bits) and divisor -1 (R308). -/
def divideOverflowCheck (sg : Sign) (bits : Nat) {n : Nat} (a b : BitVec n) : Bool × FaultCode :=
  (decide (sg = .i) && (decide (val .i a = minInt .i bits) && decide (val .i b = -1)), .divideOverflow)

/-- The checks of an operation with one N-bit operand that must be canonical (R310 rows 7, 9). -/
def unaryChecks (sg : Sign) (n bits : Nat) (a : BitVec n) : List (Bool × FaultCode) :=
  [widthCheck n bits, canonicalCheck sg bits a]

/-- The checks of an operation with two N-bit operands (R310 rows 7, 9, 10). -/
def binaryChecks (sg : Sign) (n bits : Nat) (a b : BitVec n) : List (Bool × FaultCode) :=
  [widthCheck n bits, canonicalCheck sg bits a, canonicalCheck sg bits b]

/-- The checks of a shift (R310 rows 7, 9, 11). -/
def shiftChecks (sg : Sign) (n bits : Nat) (a : BitVec n) (amt : BitVec 8) : List (Bool × FaultCode) :=
  [widthCheck n bits, canonicalCheck sg bits a, shiftCheck n amt]

/-- The checks of a division (R310 rows 7, 9, 10, 12, 13; R210). -/
def divisionChecks (sg : Sign) (n bits : Nat) (a b : BitVec n) : List (Bool × FaultCode) :=
  binaryChecks sg n bits a b ++ [zeroDivisorCheck sg b, divideOverflowCheck sg bits a b]

end Sys2Proof.Machine
end

