-- ==== Sys2Proof/Machine/BitManip.lean ====
section
/-!
DEFINITION. CLZ, CTZ, POPCOUNT, BYTESWAP and BITREVERSE (46_bitmanip.md R270 to R276): the shared operation of each, then one
meaning per row of the opcode table. Every one reads only the low `bits` bits of its operand (R271).
-/

namespace Sys2Proof.Machine

/-- The index of the highest 1 bit of `x` below bit `k`, if there is one (R272). -/
def highestOne {n : Nat} (x : BitVec n) : Nat → Option Nat
  | 0 => none
  | k + 1 => if x.getLsbD k then some k else highestOne x k

/-- The index of the lowest 1 bit of `x` below bit `k`, if there is one (R273). -/
def lowestOne {n : Nat} (x : BitVec n) : Nat → Option Nat
  | 0 => none
  | k + 1 => (lowestOne x k).or (if x.getLsbD k then some k else none)

/-- The number of 1 bits of `x` below bit `k` (R22). -/
def onesBelow {n : Nat} (x : BitVec n) : Nat → Nat
  | 0 => 0
  | k + 1 => onesBelow x k + (x.getLsbD k).toNat

/-- `popcnt(y)`: the number of 1 bits (R22). -/
def popcnt {n : Nat} (y : BitVec n) : Nat := onesBelow y n

/-- Leading zeros of a bit vector of width n, n for zero (R272). -/
def leadingZeros {n : Nat} (u : BitVec n) : Nat :=
  match highestOne u n with
  | none => n
  | some k => n - 1 - k

/-- Trailing zeros of a bit vector of width n, n for zero (R273). -/
def trailingZeros {n : Nat} (u : BitVec n) : Nat :=
  match lowestOne u n with
  | none => n
  | some k => k

/-- The n-bit vector whose bit j is `f j`. -/
def ofBits (f : Nat → Bool) : (n : Nat) → BitVec n
  | 0 => 0#0
  | n + 1 => BitVec.cons (f n) (ofBits f n)

/-- The bytes in reverse order: byte j of the result is byte k-1-j, where k = n/8 (R275, R61). -/
def swapBytes {n : Nat} (u : BitVec n) : BitVec n :=
  ofBits (fun t => u.getLsbD (8 * (n / 8 - 1 - t / 8) + t % 8)) n

/-- The bits in reverse order: bit j of the result is bit n-1-j (R276). -/
def reverseBits {n : Nat} (u : BitVec n) : BitVec n :=
  ofBits (fun j => u.getLsbD (n - 1 - j)) n

/-- The operations that count: an 8-bit unsigned count of the low `bits` bits (R271). -/
def counting (count : {k : Nat} → BitVec k → Nat) (sg : Sign) (n : Nat) (bits : BitVec 8) (a : BitVec n) (s : State) :
    Result :=
  serve (unaryChecks sg n bits.toNat a) ⟨8, enc 8 (count (lowBits bits.toNat a) : Nat)⟩ none s

/-- CLZ (R272). -/
def clz (sg : Sign) (n : Nat) (bits : BitVec 8) (a : BitVec n) (s : State) : Result :=
  counting leadingZeros sg n bits a s

/-- CTZ (R273). -/
def ctz (sg : Sign) (n : Nat) (bits : BitVec 8) (a : BitVec n) (s : State) : Result :=
  counting trailingZeros sg n bits a s

/-- POPCOUNT (R274). -/
def popcount (sg : Sign) (n : Nat) (bits : BitVec 8) (a : BitVec n) (s : State) : Result :=
  counting popcnt sg n bits a s

/-- BYTESWAP (R275): `bits` must be whole bytes, which is checked before canonicity (R310 row 8). -/
def byteswap (sg : Sign) (n : Nat) (bits : BitVec 8) (a : BitVec n) (s : State) : Result :=
  serve [widthCheck n bits.toNat, byteMultipleCheck bits.toNat, canonicalCheck sg bits.toNat a]
    ⟨n, extend sg n (swapBytes (lowBits bits.toNat a))⟩ none s

/-- BITREVERSE (R276). -/
def bitreverse (sg : Sign) (n : Nat) (bits : BitVec 8) (a : BitVec n) (s : State) : Result :=
  serve (unaryChecks sg n bits.toNat a) ⟨n, extend sg n (reverseBits (lowBits bits.toNat a))⟩ none s

/-- clz_u8 (R272). -/
def execClzU8 (bits : BitVec 8) (a : BitVec 8) (s : State) : Result := clz .u 8 bits a s

/-- clz_u16 (R272). -/
def execClzU16 (bits : BitVec 8) (a : BitVec 16) (s : State) : Result := clz .u 16 bits a s

/-- clz_u32 (R272). -/
def execClzU32 (bits : BitVec 8) (a : BitVec 32) (s : State) : Result := clz .u 32 bits a s

/-- clz_u64 (R272). -/
def execClzU64 (bits : BitVec 8) (a : BitVec 64) (s : State) : Result := clz .u 64 bits a s

/-- clz_u128 (R272). -/
def execClzU128 (bits : BitVec 8) (a : BitVec 128) (s : State) : Result := clz .u 128 bits a s

/-- clz_i8 (R272). -/
def execClzI8 (bits : BitVec 8) (a : BitVec 8) (s : State) : Result := clz .i 8 bits a s

/-- clz_i16 (R272). -/
def execClzI16 (bits : BitVec 8) (a : BitVec 16) (s : State) : Result := clz .i 16 bits a s

/-- clz_i32 (R272). -/
def execClzI32 (bits : BitVec 8) (a : BitVec 32) (s : State) : Result := clz .i 32 bits a s

/-- clz_i64 (R272). -/
def execClzI64 (bits : BitVec 8) (a : BitVec 64) (s : State) : Result := clz .i 64 bits a s

/-- clz_i128 (R272). -/
def execClzI128 (bits : BitVec 8) (a : BitVec 128) (s : State) : Result := clz .i 128 bits a s

/-- ctz_u8 (R273). -/
def execCtzU8 (bits : BitVec 8) (a : BitVec 8) (s : State) : Result := ctz .u 8 bits a s

/-- ctz_u16 (R273). -/
def execCtzU16 (bits : BitVec 8) (a : BitVec 16) (s : State) : Result := ctz .u 16 bits a s

/-- ctz_u32 (R273). -/
def execCtzU32 (bits : BitVec 8) (a : BitVec 32) (s : State) : Result := ctz .u 32 bits a s

/-- ctz_u64 (R273). -/
def execCtzU64 (bits : BitVec 8) (a : BitVec 64) (s : State) : Result := ctz .u 64 bits a s

/-- ctz_u128 (R273). -/
def execCtzU128 (bits : BitVec 8) (a : BitVec 128) (s : State) : Result := ctz .u 128 bits a s

/-- ctz_i8 (R273). -/
def execCtzI8 (bits : BitVec 8) (a : BitVec 8) (s : State) : Result := ctz .i 8 bits a s

/-- ctz_i16 (R273). -/
def execCtzI16 (bits : BitVec 8) (a : BitVec 16) (s : State) : Result := ctz .i 16 bits a s

/-- ctz_i32 (R273). -/
def execCtzI32 (bits : BitVec 8) (a : BitVec 32) (s : State) : Result := ctz .i 32 bits a s

/-- ctz_i64 (R273). -/
def execCtzI64 (bits : BitVec 8) (a : BitVec 64) (s : State) : Result := ctz .i 64 bits a s

/-- ctz_i128 (R273). -/
def execCtzI128 (bits : BitVec 8) (a : BitVec 128) (s : State) : Result := ctz .i 128 bits a s

/-- popcount_u8 (R274). -/
def execPopcountU8 (bits : BitVec 8) (a : BitVec 8) (s : State) : Result := popcount .u 8 bits a s

/-- popcount_u16 (R274). -/
def execPopcountU16 (bits : BitVec 8) (a : BitVec 16) (s : State) : Result := popcount .u 16 bits a s

/-- popcount_u32 (R274). -/
def execPopcountU32 (bits : BitVec 8) (a : BitVec 32) (s : State) : Result := popcount .u 32 bits a s

/-- popcount_u64 (R274). -/
def execPopcountU64 (bits : BitVec 8) (a : BitVec 64) (s : State) : Result := popcount .u 64 bits a s

/-- popcount_u128 (R274). -/
def execPopcountU128 (bits : BitVec 8) (a : BitVec 128) (s : State) : Result := popcount .u 128 bits a s

/-- popcount_i8 (R274). -/
def execPopcountI8 (bits : BitVec 8) (a : BitVec 8) (s : State) : Result := popcount .i 8 bits a s

/-- popcount_i16 (R274). -/
def execPopcountI16 (bits : BitVec 8) (a : BitVec 16) (s : State) : Result := popcount .i 16 bits a s

/-- popcount_i32 (R274). -/
def execPopcountI32 (bits : BitVec 8) (a : BitVec 32) (s : State) : Result := popcount .i 32 bits a s

/-- popcount_i64 (R274). -/
def execPopcountI64 (bits : BitVec 8) (a : BitVec 64) (s : State) : Result := popcount .i 64 bits a s

/-- popcount_i128 (R274). -/
def execPopcountI128 (bits : BitVec 8) (a : BitVec 128) (s : State) : Result := popcount .i 128 bits a s

/-- byteswap_u8 (R275). -/
def execByteswapU8 (bits : BitVec 8) (a : BitVec 8) (s : State) : Result := byteswap .u 8 bits a s

/-- byteswap_u16 (R275). -/
def execByteswapU16 (bits : BitVec 8) (a : BitVec 16) (s : State) : Result := byteswap .u 16 bits a s

/-- byteswap_u32 (R275). -/
def execByteswapU32 (bits : BitVec 8) (a : BitVec 32) (s : State) : Result := byteswap .u 32 bits a s

/-- byteswap_u64 (R275). -/
def execByteswapU64 (bits : BitVec 8) (a : BitVec 64) (s : State) : Result := byteswap .u 64 bits a s

/-- byteswap_u128 (R275). -/
def execByteswapU128 (bits : BitVec 8) (a : BitVec 128) (s : State) : Result := byteswap .u 128 bits a s

/-- byteswap_i8 (R275). -/
def execByteswapI8 (bits : BitVec 8) (a : BitVec 8) (s : State) : Result := byteswap .i 8 bits a s

/-- byteswap_i16 (R275). -/
def execByteswapI16 (bits : BitVec 8) (a : BitVec 16) (s : State) : Result := byteswap .i 16 bits a s

/-- byteswap_i32 (R275). -/
def execByteswapI32 (bits : BitVec 8) (a : BitVec 32) (s : State) : Result := byteswap .i 32 bits a s

/-- byteswap_i64 (R275). -/
def execByteswapI64 (bits : BitVec 8) (a : BitVec 64) (s : State) : Result := byteswap .i 64 bits a s

/-- byteswap_i128 (R275). -/
def execByteswapI128 (bits : BitVec 8) (a : BitVec 128) (s : State) : Result := byteswap .i 128 bits a s

/-- bitreverse_u8 (R276). -/
def execBitreverseU8 (bits : BitVec 8) (a : BitVec 8) (s : State) : Result := bitreverse .u 8 bits a s

/-- bitreverse_u16 (R276). -/
def execBitreverseU16 (bits : BitVec 8) (a : BitVec 16) (s : State) : Result := bitreverse .u 16 bits a s

/-- bitreverse_u32 (R276). -/
def execBitreverseU32 (bits : BitVec 8) (a : BitVec 32) (s : State) : Result := bitreverse .u 32 bits a s

/-- bitreverse_u64 (R276). -/
def execBitreverseU64 (bits : BitVec 8) (a : BitVec 64) (s : State) : Result := bitreverse .u 64 bits a s

/-- bitreverse_u128 (R276). -/
def execBitreverseU128 (bits : BitVec 8) (a : BitVec 128) (s : State) : Result := bitreverse .u 128 bits a s

/-- bitreverse_i8 (R276). -/
def execBitreverseI8 (bits : BitVec 8) (a : BitVec 8) (s : State) : Result := bitreverse .i 8 bits a s

/-- bitreverse_i16 (R276). -/
def execBitreverseI16 (bits : BitVec 8) (a : BitVec 16) (s : State) : Result := bitreverse .i 16 bits a s

/-- bitreverse_i32 (R276). -/
def execBitreverseI32 (bits : BitVec 8) (a : BitVec 32) (s : State) : Result := bitreverse .i 32 bits a s

/-- bitreverse_i64 (R276). -/
def execBitreverseI64 (bits : BitVec 8) (a : BitVec 64) (s : State) : Result := bitreverse .i 64 bits a s

/-- bitreverse_i128 (R276). -/
def execBitreverseI128 (bits : BitVec 8) (a : BitVec 128) (s : State) : Result := bitreverse .i 128 bits a s

end Sys2Proof.Machine
end

