-- ==== Sys2Proof/Machine/Division.lean ====
section
/-!
DEFINITION. DIV_TRUNC, REM, DIV_FLOOR and MOD (44_division.md R210 to R214): the shared operation, then one meaning per row of
the opcode table. MOD is the floored modulo, with the sign of the divisor (90_conflicts.md C1).
-/

namespace Sys2Proof.Machine

/-- The divisions: checks of R210, then the quotient or remainder; OVF holds no value. -/
def dividing (exact : Int → Int → Int) (sg : Sign) (n : Nat) (bits : BitVec 8) (a b : BitVec n) (s : State) : Result :=
  serve (divisionChecks sg n bits.toNat a b) ⟨n, enc n (exact (val sg a) (val sg b))⟩ none s

/-- DIV_TRUNC (R211). -/
def divTrunc (sg : Sign) (n : Nat) (bits : BitVec 8) (a b : BitVec n) (s : State) : Result :=
  dividing tdiv sg n bits a b s

/-- REM (R212). -/
def rem (sg : Sign) (n : Nat) (bits : BitVec 8) (a b : BitVec n) (s : State) : Result :=
  dividing trem sg n bits a b s

/-- DIV_FLOOR (R213). -/
def divFloor (sg : Sign) (n : Nat) (bits : BitVec 8) (a b : BitVec n) (s : State) : Result :=
  dividing fdiv sg n bits a b s

/-- MOD (R214). -/
def mod (sg : Sign) (n : Nat) (bits : BitVec 8) (a b : BitVec n) (s : State) : Result :=
  dividing fmod sg n bits a b s

/-- div_trunc_u8 (R211). -/
def execDivTruncU8 (bits : BitVec 8) (a b : BitVec 8) (s : State) : Result := divTrunc .u 8 bits a b s

/-- div_trunc_u16 (R211). -/
def execDivTruncU16 (bits : BitVec 8) (a b : BitVec 16) (s : State) : Result := divTrunc .u 16 bits a b s

/-- div_trunc_u32 (R211). -/
def execDivTruncU32 (bits : BitVec 8) (a b : BitVec 32) (s : State) : Result := divTrunc .u 32 bits a b s

/-- div_trunc_u64 (R211). -/
def execDivTruncU64 (bits : BitVec 8) (a b : BitVec 64) (s : State) : Result := divTrunc .u 64 bits a b s

/-- div_trunc_u128 (R211). -/
def execDivTruncU128 (bits : BitVec 8) (a b : BitVec 128) (s : State) : Result := divTrunc .u 128 bits a b s

/-- div_trunc_i8 (R211). -/
def execDivTruncI8 (bits : BitVec 8) (a b : BitVec 8) (s : State) : Result := divTrunc .i 8 bits a b s

/-- div_trunc_i16 (R211). -/
def execDivTruncI16 (bits : BitVec 8) (a b : BitVec 16) (s : State) : Result := divTrunc .i 16 bits a b s

/-- div_trunc_i32 (R211). -/
def execDivTruncI32 (bits : BitVec 8) (a b : BitVec 32) (s : State) : Result := divTrunc .i 32 bits a b s

/-- div_trunc_i64 (R211). -/
def execDivTruncI64 (bits : BitVec 8) (a b : BitVec 64) (s : State) : Result := divTrunc .i 64 bits a b s

/-- div_trunc_i128 (R211). -/
def execDivTruncI128 (bits : BitVec 8) (a b : BitVec 128) (s : State) : Result := divTrunc .i 128 bits a b s

/-- rem_u8 (R212). -/
def execRemU8 (bits : BitVec 8) (a b : BitVec 8) (s : State) : Result := rem .u 8 bits a b s

/-- rem_u16 (R212). -/
def execRemU16 (bits : BitVec 8) (a b : BitVec 16) (s : State) : Result := rem .u 16 bits a b s

/-- rem_u32 (R212). -/
def execRemU32 (bits : BitVec 8) (a b : BitVec 32) (s : State) : Result := rem .u 32 bits a b s

/-- rem_u64 (R212). -/
def execRemU64 (bits : BitVec 8) (a b : BitVec 64) (s : State) : Result := rem .u 64 bits a b s

/-- rem_u128 (R212). -/
def execRemU128 (bits : BitVec 8) (a b : BitVec 128) (s : State) : Result := rem .u 128 bits a b s

/-- rem_i8 (R212). -/
def execRemI8 (bits : BitVec 8) (a b : BitVec 8) (s : State) : Result := rem .i 8 bits a b s

/-- rem_i16 (R212). -/
def execRemI16 (bits : BitVec 8) (a b : BitVec 16) (s : State) : Result := rem .i 16 bits a b s

/-- rem_i32 (R212). -/
def execRemI32 (bits : BitVec 8) (a b : BitVec 32) (s : State) : Result := rem .i 32 bits a b s

/-- rem_i64 (R212). -/
def execRemI64 (bits : BitVec 8) (a b : BitVec 64) (s : State) : Result := rem .i 64 bits a b s

/-- rem_i128 (R212). -/
def execRemI128 (bits : BitVec 8) (a b : BitVec 128) (s : State) : Result := rem .i 128 bits a b s

/-- div_floor_u8 (R213). -/
def execDivFloorU8 (bits : BitVec 8) (a b : BitVec 8) (s : State) : Result := divFloor .u 8 bits a b s

/-- div_floor_u16 (R213). -/
def execDivFloorU16 (bits : BitVec 8) (a b : BitVec 16) (s : State) : Result := divFloor .u 16 bits a b s

/-- div_floor_u32 (R213). -/
def execDivFloorU32 (bits : BitVec 8) (a b : BitVec 32) (s : State) : Result := divFloor .u 32 bits a b s

/-- div_floor_u64 (R213). -/
def execDivFloorU64 (bits : BitVec 8) (a b : BitVec 64) (s : State) : Result := divFloor .u 64 bits a b s

/-- div_floor_u128 (R213). -/
def execDivFloorU128 (bits : BitVec 8) (a b : BitVec 128) (s : State) : Result := divFloor .u 128 bits a b s

/-- div_floor_i8 (R213). -/
def execDivFloorI8 (bits : BitVec 8) (a b : BitVec 8) (s : State) : Result := divFloor .i 8 bits a b s

/-- div_floor_i16 (R213). -/
def execDivFloorI16 (bits : BitVec 8) (a b : BitVec 16) (s : State) : Result := divFloor .i 16 bits a b s

/-- div_floor_i32 (R213). -/
def execDivFloorI32 (bits : BitVec 8) (a b : BitVec 32) (s : State) : Result := divFloor .i 32 bits a b s

/-- div_floor_i64 (R213). -/
def execDivFloorI64 (bits : BitVec 8) (a b : BitVec 64) (s : State) : Result := divFloor .i 64 bits a b s

/-- div_floor_i128 (R213). -/
def execDivFloorI128 (bits : BitVec 8) (a b : BitVec 128) (s : State) : Result := divFloor .i 128 bits a b s

/-- mod_u8 (R214). -/
def execModU8 (bits : BitVec 8) (a b : BitVec 8) (s : State) : Result := mod .u 8 bits a b s

/-- mod_u16 (R214). -/
def execModU16 (bits : BitVec 8) (a b : BitVec 16) (s : State) : Result := mod .u 16 bits a b s

/-- mod_u32 (R214). -/
def execModU32 (bits : BitVec 8) (a b : BitVec 32) (s : State) : Result := mod .u 32 bits a b s

/-- mod_u64 (R214). -/
def execModU64 (bits : BitVec 8) (a b : BitVec 64) (s : State) : Result := mod .u 64 bits a b s

/-- mod_u128 (R214). -/
def execModU128 (bits : BitVec 8) (a b : BitVec 128) (s : State) : Result := mod .u 128 bits a b s

/-- mod_i8 (R214). -/
def execModI8 (bits : BitVec 8) (a b : BitVec 8) (s : State) : Result := mod .i 8 bits a b s

/-- mod_i16 (R214). -/
def execModI16 (bits : BitVec 8) (a b : BitVec 16) (s : State) : Result := mod .i 16 bits a b s

/-- mod_i32 (R214). -/
def execModI32 (bits : BitVec 8) (a b : BitVec 32) (s : State) : Result := mod .i 32 bits a b s

/-- mod_i64 (R214). -/
def execModI64 (bits : BitVec 8) (a b : BitVec 64) (s : State) : Result := mod .i 64 bits a b s

/-- mod_i128 (R214). -/
def execModI128 (bits : BitVec 8) (a b : BitVec 128) (s : State) : Result := mod .i 128 bits a b s

end Sys2Proof.Machine
end

