-- ==== Sys2Proof/Machine/Int128.lean ====
section
/-!
DEFINITION. MAKE, HI, LO and CMP, the operations that exist at 128 bits only (45_int128.md R241 to R244): the shared operation
of each, then one meaning per row of the opcode table. They take no LogicalWidth and check no operand (R93).
-/

namespace Sys2Proof.Machine

/-- The upper half, bits 127:64 (R62, R242). -/
def hi64 (a : BitVec 128) : BitVec 64 := a.extractLsb' 64 64

/-- The lower half, bits 63:0 (R62, R243). -/
def lo64 (a : BitVec 128) : BitVec 64 := a.extractLsb' 0 64

/-- The three-way comparison -1, 0 or +1 of two integers (R244). -/
def threeWay (x y : Int) : Int := if x < y then -1 else if x = y then 0 else 1

/-- MAKE: the first operand above the second; the same bits at both signednesses (R241). -/
def make (_ : Sign) (a b : BitVec 64) (s : State) : Result := serve [] ⟨128, a ++ b⟩ none s

/-- HI (R242). -/
def hi (_ : Sign) (a : BitVec 128) (s : State) : Result := serve [] ⟨64, hi64 a⟩ none s

/-- LO (R243). -/
def lo (_ : Sign) (a : BitVec 128) (s : State) : Result := serve [] ⟨64, lo64 a⟩ none s

/-- CMP: an 8-bit signed -1, 0 or +1 (R244). -/
def cmp (sg : Sign) (a b : BitVec 128) (s : State) : Result :=
  serve [] ⟨8, enc 8 (threeWay (val sg a) (val sg b))⟩ none s

/-- make_u128 (R241). -/
def execMakeU128 (a b : BitVec 64) (s : State) : Result := make .u a b s

/-- make_i128 (R241). -/
def execMakeI128 (a b : BitVec 64) (s : State) : Result := make .i a b s

/-- hi_u128 (R242). -/
def execHiU128 (a : BitVec 128) (s : State) : Result := hi .u a s

/-- hi_i128 (R242). -/
def execHiI128 (a : BitVec 128) (s : State) : Result := hi .i a s

/-- lo_u128 (R243). -/
def execLoU128 (a : BitVec 128) (s : State) : Result := lo .u a s

/-- lo_i128 (R243). -/
def execLoI128 (a : BitVec 128) (s : State) : Result := lo .i a s

/-- cmp_u128 (R244). -/
def execCmpU128 (a b : BitVec 128) (s : State) : Result := cmp .u a b s

/-- cmp_i128 (R244). -/
def execCmpI128 (a b : BitVec 128) (s : State) : Result := cmp .i a b s

end Sys2Proof.Machine
end

