-- ==== Sys2Proof/Machine/Flags.lean ====
section
/-!
DEFINITION. The overflow flag, the only flag of the block (10_state.md R33, 42_overflow_checked.md R170).
-/

namespace Sys2Proof.Machine

/-- The flag of ADDO, SUBO and MULO: the exact result lies outside the range of (s, bits) (R170). -/
def overflowFlag (sg : Sign) (bits : Nat) (exact : Int) : Bool :=
  decide (exact < minInt sg bits) || decide (maxInt sg bits < exact)

end Sys2Proof.Machine
end

