-- ==== Sys2Proof/Machine/OverflowChecked.lean ====
section
/-!
DEFINITION. ADDO, SUBO and MULO, the overflow detector (42_overflow_checked.md R170 to R174): the shared operation, then one
meaning per row of the opcode table.
-/

namespace Sys2Proof.Machine

/-- The overflow-checked operations: the exact result reduced to `bits`, and the flag that says whether it was outside the
range of (s, bits) (R170). -/
def checked (exact : Int → Int → Int) (sg : Sign) (n : Nat) (bits : BitVec 8) (a b : BitVec n) (s : State) : Result :=
  serve (binaryChecks sg n bits.toNat a b) ⟨n, enc n (wrapv sg bits.toNat (exact (val sg a) (val sg b)))⟩
    (some (overflowFlag sg bits.toNat (exact (val sg a) (val sg b)))) s

/-- ADDO (R172). -/
def addo (sg : Sign) (n : Nat) (bits : BitVec 8) (a b : BitVec n) (s : State) : Result :=
  checked (fun x y => x + y) sg n bits a b s

/-- SUBO (R173). -/
def subo (sg : Sign) (n : Nat) (bits : BitVec 8) (a b : BitVec n) (s : State) : Result :=
  checked (fun x y => x - y) sg n bits a b s

/-- MULO (R174). -/
def mulo (sg : Sign) (n : Nat) (bits : BitVec 8) (a b : BitVec n) (s : State) : Result :=
  checked (fun x y => x * y) sg n bits a b s

/-- addo_u8 (R172). -/
def execAddoU8 (bits : BitVec 8) (a b : BitVec 8) (s : State) : Result := addo .u 8 bits a b s

/-- addo_u16 (R172). -/
def execAddoU16 (bits : BitVec 8) (a b : BitVec 16) (s : State) : Result := addo .u 16 bits a b s

/-- addo_u32 (R172). -/
def execAddoU32 (bits : BitVec 8) (a b : BitVec 32) (s : State) : Result := addo .u 32 bits a b s

/-- addo_u64 (R172). -/
def execAddoU64 (bits : BitVec 8) (a b : BitVec 64) (s : State) : Result := addo .u 64 bits a b s

/-- addo_u128 (R172). -/
def execAddoU128 (bits : BitVec 8) (a b : BitVec 128) (s : State) : Result := addo .u 128 bits a b s

/-- addo_i8 (R172). -/
def execAddoI8 (bits : BitVec 8) (a b : BitVec 8) (s : State) : Result := addo .i 8 bits a b s

/-- addo_i16 (R172). -/
def execAddoI16 (bits : BitVec 8) (a b : BitVec 16) (s : State) : Result := addo .i 16 bits a b s

/-- addo_i32 (R172). -/
def execAddoI32 (bits : BitVec 8) (a b : BitVec 32) (s : State) : Result := addo .i 32 bits a b s

/-- addo_i64 (R172). -/
def execAddoI64 (bits : BitVec 8) (a b : BitVec 64) (s : State) : Result := addo .i 64 bits a b s

/-- addo_i128 (R172). -/
def execAddoI128 (bits : BitVec 8) (a b : BitVec 128) (s : State) : Result := addo .i 128 bits a b s

/-- subo_u8 (R173). -/
def execSuboU8 (bits : BitVec 8) (a b : BitVec 8) (s : State) : Result := subo .u 8 bits a b s

/-- subo_u16 (R173). -/
def execSuboU16 (bits : BitVec 8) (a b : BitVec 16) (s : State) : Result := subo .u 16 bits a b s

/-- subo_u32 (R173). -/
def execSuboU32 (bits : BitVec 8) (a b : BitVec 32) (s : State) : Result := subo .u 32 bits a b s

/-- subo_u64 (R173). -/
def execSuboU64 (bits : BitVec 8) (a b : BitVec 64) (s : State) : Result := subo .u 64 bits a b s

/-- subo_u128 (R173). -/
def execSuboU128 (bits : BitVec 8) (a b : BitVec 128) (s : State) : Result := subo .u 128 bits a b s

/-- subo_i8 (R173). -/
def execSuboI8 (bits : BitVec 8) (a b : BitVec 8) (s : State) : Result := subo .i 8 bits a b s

/-- subo_i16 (R173). -/
def execSuboI16 (bits : BitVec 8) (a b : BitVec 16) (s : State) : Result := subo .i 16 bits a b s

/-- subo_i32 (R173). -/
def execSuboI32 (bits : BitVec 8) (a b : BitVec 32) (s : State) : Result := subo .i 32 bits a b s

/-- subo_i64 (R173). -/
def execSuboI64 (bits : BitVec 8) (a b : BitVec 64) (s : State) : Result := subo .i 64 bits a b s

/-- subo_i128 (R173). -/
def execSuboI128 (bits : BitVec 8) (a b : BitVec 128) (s : State) : Result := subo .i 128 bits a b s

/-- mulo_u8 (R174). -/
def execMuloU8 (bits : BitVec 8) (a b : BitVec 8) (s : State) : Result := mulo .u 8 bits a b s

/-- mulo_u16 (R174). -/
def execMuloU16 (bits : BitVec 8) (a b : BitVec 16) (s : State) : Result := mulo .u 16 bits a b s

/-- mulo_u32 (R174). -/
def execMuloU32 (bits : BitVec 8) (a b : BitVec 32) (s : State) : Result := mulo .u 32 bits a b s

/-- mulo_u64 (R174). -/
def execMuloU64 (bits : BitVec 8) (a b : BitVec 64) (s : State) : Result := mulo .u 64 bits a b s

/-- mulo_u128 (R174). -/
def execMuloU128 (bits : BitVec 8) (a b : BitVec 128) (s : State) : Result := mulo .u 128 bits a b s

/-- mulo_i8 (R174). -/
def execMuloI8 (bits : BitVec 8) (a b : BitVec 8) (s : State) : Result := mulo .i 8 bits a b s

/-- mulo_i16 (R174). -/
def execMuloI16 (bits : BitVec 8) (a b : BitVec 16) (s : State) : Result := mulo .i 16 bits a b s

/-- mulo_i32 (R174). -/
def execMuloI32 (bits : BitVec 8) (a b : BitVec 32) (s : State) : Result := mulo .i 32 bits a b s

/-- mulo_i64 (R174). -/
def execMuloI64 (bits : BitVec 8) (a b : BitVec 64) (s : State) : Result := mulo .i 64 bits a b s

/-- mulo_i128 (R174). -/
def execMuloI128 (bits : BitVec 8) (a b : BitVec 128) (s : State) : Result := mulo .i 128 bits a b s

end Sys2Proof.Machine
end

