-- ==== Sys2Proof/Machine/Saturating.lean ====
section
/-!
DEFINITION. ADDS, SUBS and MULS (43_saturating.md R190 to R194): the shared operation, then one meaning per row of the opcode
table.
-/

namespace Sys2Proof.Machine

/-- The saturating operations: the exact result clamped to the range of (s, bits); OVF holds no value (R190). -/
def saturating (exact : Int → Int → Int) (sg : Sign) (n : Nat) (bits : BitVec 8) (a b : BitVec n) (s : State) : Result :=
  serve (binaryChecks sg n bits.toNat a b) ⟨n, enc n (clamp sg bits.toNat (exact (val sg a) (val sg b)))⟩ none s

/-- ADDS (R192). -/
def adds (sg : Sign) (n : Nat) (bits : BitVec 8) (a b : BitVec n) (s : State) : Result :=
  saturating (fun x y => x + y) sg n bits a b s

/-- SUBS (R193). -/
def subs (sg : Sign) (n : Nat) (bits : BitVec 8) (a b : BitVec n) (s : State) : Result :=
  saturating (fun x y => x - y) sg n bits a b s

/-- MULS (R194). -/
def muls (sg : Sign) (n : Nat) (bits : BitVec 8) (a b : BitVec n) (s : State) : Result :=
  saturating (fun x y => x * y) sg n bits a b s

/-- adds_u8 (R192). -/
def execAddsU8 (bits : BitVec 8) (a b : BitVec 8) (s : State) : Result := adds .u 8 bits a b s

/-- adds_u16 (R192). -/
def execAddsU16 (bits : BitVec 8) (a b : BitVec 16) (s : State) : Result := adds .u 16 bits a b s

/-- adds_u32 (R192). -/
def execAddsU32 (bits : BitVec 8) (a b : BitVec 32) (s : State) : Result := adds .u 32 bits a b s

/-- adds_u64 (R192). -/
def execAddsU64 (bits : BitVec 8) (a b : BitVec 64) (s : State) : Result := adds .u 64 bits a b s

/-- adds_u128 (R192). -/
def execAddsU128 (bits : BitVec 8) (a b : BitVec 128) (s : State) : Result := adds .u 128 bits a b s

/-- adds_i8 (R192). -/
def execAddsI8 (bits : BitVec 8) (a b : BitVec 8) (s : State) : Result := adds .i 8 bits a b s

/-- adds_i16 (R192). -/
def execAddsI16 (bits : BitVec 8) (a b : BitVec 16) (s : State) : Result := adds .i 16 bits a b s

/-- adds_i32 (R192). -/
def execAddsI32 (bits : BitVec 8) (a b : BitVec 32) (s : State) : Result := adds .i 32 bits a b s

/-- adds_i64 (R192). -/
def execAddsI64 (bits : BitVec 8) (a b : BitVec 64) (s : State) : Result := adds .i 64 bits a b s

/-- adds_i128 (R192). -/
def execAddsI128 (bits : BitVec 8) (a b : BitVec 128) (s : State) : Result := adds .i 128 bits a b s

/-- subs_u8 (R193). -/
def execSubsU8 (bits : BitVec 8) (a b : BitVec 8) (s : State) : Result := subs .u 8 bits a b s

/-- subs_u16 (R193). -/
def execSubsU16 (bits : BitVec 8) (a b : BitVec 16) (s : State) : Result := subs .u 16 bits a b s

/-- subs_u32 (R193). -/
def execSubsU32 (bits : BitVec 8) (a b : BitVec 32) (s : State) : Result := subs .u 32 bits a b s

/-- subs_u64 (R193). -/
def execSubsU64 (bits : BitVec 8) (a b : BitVec 64) (s : State) : Result := subs .u 64 bits a b s

/-- subs_u128 (R193). -/
def execSubsU128 (bits : BitVec 8) (a b : BitVec 128) (s : State) : Result := subs .u 128 bits a b s

/-- subs_i8 (R193). -/
def execSubsI8 (bits : BitVec 8) (a b : BitVec 8) (s : State) : Result := subs .i 8 bits a b s

/-- subs_i16 (R193). -/
def execSubsI16 (bits : BitVec 8) (a b : BitVec 16) (s : State) : Result := subs .i 16 bits a b s

/-- subs_i32 (R193). -/
def execSubsI32 (bits : BitVec 8) (a b : BitVec 32) (s : State) : Result := subs .i 32 bits a b s

/-- subs_i64 (R193). -/
def execSubsI64 (bits : BitVec 8) (a b : BitVec 64) (s : State) : Result := subs .i 64 bits a b s

/-- subs_i128 (R193). -/
def execSubsI128 (bits : BitVec 8) (a b : BitVec 128) (s : State) : Result := subs .i 128 bits a b s

/-- muls_u8 (R194). -/
def execMulsU8 (bits : BitVec 8) (a b : BitVec 8) (s : State) : Result := muls .u 8 bits a b s

/-- muls_u16 (R194). -/
def execMulsU16 (bits : BitVec 8) (a b : BitVec 16) (s : State) : Result := muls .u 16 bits a b s

/-- muls_u32 (R194). -/
def execMulsU32 (bits : BitVec 8) (a b : BitVec 32) (s : State) : Result := muls .u 32 bits a b s

/-- muls_u64 (R194). -/
def execMulsU64 (bits : BitVec 8) (a b : BitVec 64) (s : State) : Result := muls .u 64 bits a b s

/-- muls_u128 (R194). -/
def execMulsU128 (bits : BitVec 8) (a b : BitVec 128) (s : State) : Result := muls .u 128 bits a b s

/-- muls_i8 (R194). -/
def execMulsI8 (bits : BitVec 8) (a b : BitVec 8) (s : State) : Result := muls .i 8 bits a b s

/-- muls_i16 (R194). -/
def execMulsI16 (bits : BitVec 8) (a b : BitVec 16) (s : State) : Result := muls .i 16 bits a b s

/-- muls_i32 (R194). -/
def execMulsI32 (bits : BitVec 8) (a b : BitVec 32) (s : State) : Result := muls .i 32 bits a b s

/-- muls_i64 (R194). -/
def execMulsI64 (bits : BitVec 8) (a b : BitVec 64) (s : State) : Result := muls .i 64 bits a b s

/-- muls_i128 (R194). -/
def execMulsI128 (bits : BitVec 8) (a b : BitVec 128) (s : State) : Result := muls .i 128 bits a b s

end Sys2Proof.Machine
end

