-- ==== Sys2Proof/Machine/WrapBitwiseShift.lean ====
section
/-!
DEFINITION. WRAP, NOT, AND, OR, XOR, SHL and SHR (40_wrap_bitwise_shift.md R120 to R127): the shared operation of each, then
one meaning per row of the opcode table.
-/

namespace Sys2Proof.Machine

/-- The value of WRAP: the low `bits` bits, zero- or sign-extended to the container (R121). -/
def wrapValue (sg : Sign) (bits : Nat) {n : Nat} (a : BitVec n) : BitVec n :=
  extend sg n (lowBits bits a)

/-- WRAP (R121). It has no canonicity check (R93). -/
def wrap (sg : Sign) (n : Nat) (bits : BitVec 8) (a : BitVec n) (s : State) : Result :=
  serve [widthCheck n bits.toNat] ⟨n, wrapValue sg bits.toNat a⟩ none s

/-- NOT: the complement of all N bits, then WRAP (R122). -/
def not (sg : Sign) (n : Nat) (bits : BitVec 8) (a : BitVec n) (s : State) : Result :=
  serve (unaryChecks sg n bits.toNat a) ⟨n, wrapValue sg bits.toNat (~~~a)⟩ none s

/-- AND: all N bits, no wrap (R123). -/
def and (sg : Sign) (n : Nat) (bits : BitVec 8) (a b : BitVec n) (s : State) : Result :=
  serve (binaryChecks sg n bits.toNat a b) ⟨n, a &&& b⟩ none s

/-- OR: all N bits, no wrap (R124). -/
def or (sg : Sign) (n : Nat) (bits : BitVec 8) (a b : BitVec n) (s : State) : Result :=
  serve (binaryChecks sg n bits.toNat a b) ⟨n, a ||| b⟩ none s

/-- XOR: all N bits, no wrap (R125). -/
def xor (sg : Sign) (n : Nat) (bits : BitVec 8) (a b : BitVec n) (s : State) : Result :=
  serve (binaryChecks sg n bits.toNat a b) ⟨n, a ^^^ b⟩ none s

/-- SHL: multiplication by 2^amt, reduced to `bits` (R126). -/
def shl (sg : Sign) (n : Nat) (bits : BitVec 8) (a : BitVec n) (b : BitVec 8) (s : State) : Result :=
  serve (shiftChecks sg n bits.toNat a b)
    ⟨n, enc n (wrapv sg bits.toNat (val sg a * (2 ^ b.toNat : Nat)))⟩ none s

/-- SHR: floor division by 2^amt, logical for s = u and arithmetic for s = i (R127). -/
def shr (sg : Sign) (n : Nat) (bits : BitVec 8) (a : BitVec n) (b : BitVec 8) (s : State) : Result :=
  serve (shiftChecks sg n bits.toNat a b) ⟨n, enc n (fdiv (val sg a) (2 ^ b.toNat : Nat))⟩ none s

/-- wrap_u8 (R121). -/
def execWrapU8 (bits : BitVec 8) (a : BitVec 8) (s : State) : Result := wrap .u 8 bits a s

/-- wrap_u16 (R121). -/
def execWrapU16 (bits : BitVec 8) (a : BitVec 16) (s : State) : Result := wrap .u 16 bits a s

/-- wrap_u32 (R121). -/
def execWrapU32 (bits : BitVec 8) (a : BitVec 32) (s : State) : Result := wrap .u 32 bits a s

/-- wrap_u64 (R121). -/
def execWrapU64 (bits : BitVec 8) (a : BitVec 64) (s : State) : Result := wrap .u 64 bits a s

/-- wrap_u128 (R121). -/
def execWrapU128 (bits : BitVec 8) (a : BitVec 128) (s : State) : Result := wrap .u 128 bits a s

/-- wrap_i8 (R121). -/
def execWrapI8 (bits : BitVec 8) (a : BitVec 8) (s : State) : Result := wrap .i 8 bits a s

/-- wrap_i16 (R121). -/
def execWrapI16 (bits : BitVec 8) (a : BitVec 16) (s : State) : Result := wrap .i 16 bits a s

/-- wrap_i32 (R121). -/
def execWrapI32 (bits : BitVec 8) (a : BitVec 32) (s : State) : Result := wrap .i 32 bits a s

/-- wrap_i64 (R121). -/
def execWrapI64 (bits : BitVec 8) (a : BitVec 64) (s : State) : Result := wrap .i 64 bits a s

/-- wrap_i128 (R121). -/
def execWrapI128 (bits : BitVec 8) (a : BitVec 128) (s : State) : Result := wrap .i 128 bits a s

/-- not_u8 (R122). -/
def execNotU8 (bits : BitVec 8) (a : BitVec 8) (s : State) : Result := not .u 8 bits a s

/-- not_u16 (R122). -/
def execNotU16 (bits : BitVec 8) (a : BitVec 16) (s : State) : Result := not .u 16 bits a s

/-- not_u32 (R122). -/
def execNotU32 (bits : BitVec 8) (a : BitVec 32) (s : State) : Result := not .u 32 bits a s

/-- not_u64 (R122). -/
def execNotU64 (bits : BitVec 8) (a : BitVec 64) (s : State) : Result := not .u 64 bits a s

/-- not_u128 (R122). -/
def execNotU128 (bits : BitVec 8) (a : BitVec 128) (s : State) : Result := not .u 128 bits a s

/-- not_i8 (R122). -/
def execNotI8 (bits : BitVec 8) (a : BitVec 8) (s : State) : Result := not .i 8 bits a s

/-- not_i16 (R122). -/
def execNotI16 (bits : BitVec 8) (a : BitVec 16) (s : State) : Result := not .i 16 bits a s

/-- not_i32 (R122). -/
def execNotI32 (bits : BitVec 8) (a : BitVec 32) (s : State) : Result := not .i 32 bits a s

/-- not_i64 (R122). -/
def execNotI64 (bits : BitVec 8) (a : BitVec 64) (s : State) : Result := not .i 64 bits a s

/-- not_i128 (R122). -/
def execNotI128 (bits : BitVec 8) (a : BitVec 128) (s : State) : Result := not .i 128 bits a s

/-- and_u8 (R123). -/
def execAndU8 (bits : BitVec 8) (a b : BitVec 8) (s : State) : Result := and .u 8 bits a b s

/-- and_u16 (R123). -/
def execAndU16 (bits : BitVec 8) (a b : BitVec 16) (s : State) : Result := and .u 16 bits a b s

/-- and_u32 (R123). -/
def execAndU32 (bits : BitVec 8) (a b : BitVec 32) (s : State) : Result := and .u 32 bits a b s

/-- and_u64 (R123). -/
def execAndU64 (bits : BitVec 8) (a b : BitVec 64) (s : State) : Result := and .u 64 bits a b s

/-- and_u128 (R123). -/
def execAndU128 (bits : BitVec 8) (a b : BitVec 128) (s : State) : Result := and .u 128 bits a b s

/-- and_i8 (R123). -/
def execAndI8 (bits : BitVec 8) (a b : BitVec 8) (s : State) : Result := and .i 8 bits a b s

/-- and_i16 (R123). -/
def execAndI16 (bits : BitVec 8) (a b : BitVec 16) (s : State) : Result := and .i 16 bits a b s

/-- and_i32 (R123). -/
def execAndI32 (bits : BitVec 8) (a b : BitVec 32) (s : State) : Result := and .i 32 bits a b s

/-- and_i64 (R123). -/
def execAndI64 (bits : BitVec 8) (a b : BitVec 64) (s : State) : Result := and .i 64 bits a b s

/-- and_i128 (R123). -/
def execAndI128 (bits : BitVec 8) (a b : BitVec 128) (s : State) : Result := and .i 128 bits a b s

/-- or_u8 (R124). -/
def execOrU8 (bits : BitVec 8) (a b : BitVec 8) (s : State) : Result := or .u 8 bits a b s

/-- or_u16 (R124). -/
def execOrU16 (bits : BitVec 8) (a b : BitVec 16) (s : State) : Result := or .u 16 bits a b s

/-- or_u32 (R124). -/
def execOrU32 (bits : BitVec 8) (a b : BitVec 32) (s : State) : Result := or .u 32 bits a b s

/-- or_u64 (R124). -/
def execOrU64 (bits : BitVec 8) (a b : BitVec 64) (s : State) : Result := or .u 64 bits a b s

/-- or_u128 (R124). -/
def execOrU128 (bits : BitVec 8) (a b : BitVec 128) (s : State) : Result := or .u 128 bits a b s

/-- or_i8 (R124). -/
def execOrI8 (bits : BitVec 8) (a b : BitVec 8) (s : State) : Result := or .i 8 bits a b s

/-- or_i16 (R124). -/
def execOrI16 (bits : BitVec 8) (a b : BitVec 16) (s : State) : Result := or .i 16 bits a b s

/-- or_i32 (R124). -/
def execOrI32 (bits : BitVec 8) (a b : BitVec 32) (s : State) : Result := or .i 32 bits a b s

/-- or_i64 (R124). -/
def execOrI64 (bits : BitVec 8) (a b : BitVec 64) (s : State) : Result := or .i 64 bits a b s

/-- or_i128 (R124). -/
def execOrI128 (bits : BitVec 8) (a b : BitVec 128) (s : State) : Result := or .i 128 bits a b s

/-- xor_u8 (R125). -/
def execXorU8 (bits : BitVec 8) (a b : BitVec 8) (s : State) : Result := xor .u 8 bits a b s

/-- xor_u16 (R125). -/
def execXorU16 (bits : BitVec 8) (a b : BitVec 16) (s : State) : Result := xor .u 16 bits a b s

/-- xor_u32 (R125). -/
def execXorU32 (bits : BitVec 8) (a b : BitVec 32) (s : State) : Result := xor .u 32 bits a b s

/-- xor_u64 (R125). -/
def execXorU64 (bits : BitVec 8) (a b : BitVec 64) (s : State) : Result := xor .u 64 bits a b s

/-- xor_u128 (R125). -/
def execXorU128 (bits : BitVec 8) (a b : BitVec 128) (s : State) : Result := xor .u 128 bits a b s

/-- xor_i8 (R125). -/
def execXorI8 (bits : BitVec 8) (a b : BitVec 8) (s : State) : Result := xor .i 8 bits a b s

/-- xor_i16 (R125). -/
def execXorI16 (bits : BitVec 8) (a b : BitVec 16) (s : State) : Result := xor .i 16 bits a b s

/-- xor_i32 (R125). -/
def execXorI32 (bits : BitVec 8) (a b : BitVec 32) (s : State) : Result := xor .i 32 bits a b s

/-- xor_i64 (R125). -/
def execXorI64 (bits : BitVec 8) (a b : BitVec 64) (s : State) : Result := xor .i 64 bits a b s

/-- xor_i128 (R125). -/
def execXorI128 (bits : BitVec 8) (a b : BitVec 128) (s : State) : Result := xor .i 128 bits a b s

/-- shl_u8 (R126). -/
def execShlU8 (bits : BitVec 8) (a : BitVec 8) (b : BitVec 8) (s : State) : Result := shl .u 8 bits a b s

/-- shl_u16 (R126). -/
def execShlU16 (bits : BitVec 8) (a : BitVec 16) (b : BitVec 8) (s : State) : Result := shl .u 16 bits a b s

/-- shl_u32 (R126). -/
def execShlU32 (bits : BitVec 8) (a : BitVec 32) (b : BitVec 8) (s : State) : Result := shl .u 32 bits a b s

/-- shl_u64 (R126). -/
def execShlU64 (bits : BitVec 8) (a : BitVec 64) (b : BitVec 8) (s : State) : Result := shl .u 64 bits a b s

/-- shl_u128 (R126). -/
def execShlU128 (bits : BitVec 8) (a : BitVec 128) (b : BitVec 8) (s : State) : Result := shl .u 128 bits a b s

/-- shl_i8 (R126). -/
def execShlI8 (bits : BitVec 8) (a : BitVec 8) (b : BitVec 8) (s : State) : Result := shl .i 8 bits a b s

/-- shl_i16 (R126). -/
def execShlI16 (bits : BitVec 8) (a : BitVec 16) (b : BitVec 8) (s : State) : Result := shl .i 16 bits a b s

/-- shl_i32 (R126). -/
def execShlI32 (bits : BitVec 8) (a : BitVec 32) (b : BitVec 8) (s : State) : Result := shl .i 32 bits a b s

/-- shl_i64 (R126). -/
def execShlI64 (bits : BitVec 8) (a : BitVec 64) (b : BitVec 8) (s : State) : Result := shl .i 64 bits a b s

/-- shl_i128 (R126). -/
def execShlI128 (bits : BitVec 8) (a : BitVec 128) (b : BitVec 8) (s : State) : Result := shl .i 128 bits a b s

/-- shr_u8 (R127). -/
def execShrU8 (bits : BitVec 8) (a : BitVec 8) (b : BitVec 8) (s : State) : Result := shr .u 8 bits a b s

/-- shr_u16 (R127). -/
def execShrU16 (bits : BitVec 8) (a : BitVec 16) (b : BitVec 8) (s : State) : Result := shr .u 16 bits a b s

/-- shr_u32 (R127). -/
def execShrU32 (bits : BitVec 8) (a : BitVec 32) (b : BitVec 8) (s : State) : Result := shr .u 32 bits a b s

/-- shr_u64 (R127). -/
def execShrU64 (bits : BitVec 8) (a : BitVec 64) (b : BitVec 8) (s : State) : Result := shr .u 64 bits a b s

/-- shr_u128 (R127). -/
def execShrU128 (bits : BitVec 8) (a : BitVec 128) (b : BitVec 8) (s : State) : Result := shr .u 128 bits a b s

/-- shr_i8 (R127). -/
def execShrI8 (bits : BitVec 8) (a : BitVec 8) (b : BitVec 8) (s : State) : Result := shr .i 8 bits a b s

/-- shr_i16 (R127). -/
def execShrI16 (bits : BitVec 8) (a : BitVec 16) (b : BitVec 8) (s : State) : Result := shr .i 16 bits a b s

/-- shr_i32 (R127). -/
def execShrI32 (bits : BitVec 8) (a : BitVec 32) (b : BitVec 8) (s : State) : Result := shr .i 32 bits a b s

/-- shr_i64 (R127). -/
def execShrI64 (bits : BitVec 8) (a : BitVec 64) (b : BitVec 8) (s : State) : Result := shr .i 64 bits a b s

/-- shr_i128 (R127). -/
def execShrI128 (bits : BitVec 8) (a : BitVec 128) (b : BitVec 8) (s : State) : Result := shr .i 128 bits a b s

end Sys2Proof.Machine
end

