-- ==== Sys2Proof/Machine/WrappingArith.lean ====
section
/-!
DEFINITION. ADDW, SUBW and MULW (41_wrapping_arith.md R150 to R153): the shared operation, then one meaning per row of the
opcode table.
-/

namespace Sys2Proof.Machine

/-- The wrapping operations: the exact result `exact`, reduced to `bits`; OVF holds no value (R150). -/
def wrapping (exact : Int → Int → Int) (sg : Sign) (n : Nat) (bits : BitVec 8) (a b : BitVec n) (s : State) : Result :=
  serve (binaryChecks sg n bits.toNat a b) ⟨n, enc n (wrapv sg bits.toNat (exact (val sg a) (val sg b)))⟩ none s

/-- ADDW (R151). -/
def addw (sg : Sign) (n : Nat) (bits : BitVec 8) (a b : BitVec n) (s : State) : Result :=
  wrapping (fun x y => x + y) sg n bits a b s

/-- SUBW (R152). -/
def subw (sg : Sign) (n : Nat) (bits : BitVec 8) (a b : BitVec n) (s : State) : Result :=
  wrapping (fun x y => x - y) sg n bits a b s

/-- MULW (R153). -/
def mulw (sg : Sign) (n : Nat) (bits : BitVec 8) (a b : BitVec n) (s : State) : Result :=
  wrapping (fun x y => x * y) sg n bits a b s

/-- addw_u8 (R151). -/
def execAddwU8 (bits : BitVec 8) (a b : BitVec 8) (s : State) : Result := addw .u 8 bits a b s

/-- addw_u16 (R151). -/
def execAddwU16 (bits : BitVec 8) (a b : BitVec 16) (s : State) : Result := addw .u 16 bits a b s

/-- addw_u32 (R151). -/
def execAddwU32 (bits : BitVec 8) (a b : BitVec 32) (s : State) : Result := addw .u 32 bits a b s

/-- addw_u64 (R151). -/
def execAddwU64 (bits : BitVec 8) (a b : BitVec 64) (s : State) : Result := addw .u 64 bits a b s

/-- addw_u128 (R151). -/
def execAddwU128 (bits : BitVec 8) (a b : BitVec 128) (s : State) : Result := addw .u 128 bits a b s

/-- addw_i8 (R151). -/
def execAddwI8 (bits : BitVec 8) (a b : BitVec 8) (s : State) : Result := addw .i 8 bits a b s

/-- addw_i16 (R151). -/
def execAddwI16 (bits : BitVec 8) (a b : BitVec 16) (s : State) : Result := addw .i 16 bits a b s

/-- addw_i32 (R151). -/
def execAddwI32 (bits : BitVec 8) (a b : BitVec 32) (s : State) : Result := addw .i 32 bits a b s

/-- addw_i64 (R151). -/
def execAddwI64 (bits : BitVec 8) (a b : BitVec 64) (s : State) : Result := addw .i 64 bits a b s

/-- addw_i128 (R151). -/
def execAddwI128 (bits : BitVec 8) (a b : BitVec 128) (s : State) : Result := addw .i 128 bits a b s

/-- subw_u8 (R152). -/
def execSubwU8 (bits : BitVec 8) (a b : BitVec 8) (s : State) : Result := subw .u 8 bits a b s

/-- subw_u16 (R152). -/
def execSubwU16 (bits : BitVec 8) (a b : BitVec 16) (s : State) : Result := subw .u 16 bits a b s

/-- subw_u32 (R152). -/
def execSubwU32 (bits : BitVec 8) (a b : BitVec 32) (s : State) : Result := subw .u 32 bits a b s

/-- subw_u64 (R152). -/
def execSubwU64 (bits : BitVec 8) (a b : BitVec 64) (s : State) : Result := subw .u 64 bits a b s

/-- subw_u128 (R152). -/
def execSubwU128 (bits : BitVec 8) (a b : BitVec 128) (s : State) : Result := subw .u 128 bits a b s

/-- subw_i8 (R152). -/
def execSubwI8 (bits : BitVec 8) (a b : BitVec 8) (s : State) : Result := subw .i 8 bits a b s

/-- subw_i16 (R152). -/
def execSubwI16 (bits : BitVec 8) (a b : BitVec 16) (s : State) : Result := subw .i 16 bits a b s

/-- subw_i32 (R152). -/
def execSubwI32 (bits : BitVec 8) (a b : BitVec 32) (s : State) : Result := subw .i 32 bits a b s

/-- subw_i64 (R152). -/
def execSubwI64 (bits : BitVec 8) (a b : BitVec 64) (s : State) : Result := subw .i 64 bits a b s

/-- subw_i128 (R152). -/
def execSubwI128 (bits : BitVec 8) (a b : BitVec 128) (s : State) : Result := subw .i 128 bits a b s

/-- mulw_u8 (R153). -/
def execMulwU8 (bits : BitVec 8) (a b : BitVec 8) (s : State) : Result := mulw .u 8 bits a b s

/-- mulw_u16 (R153). -/
def execMulwU16 (bits : BitVec 8) (a b : BitVec 16) (s : State) : Result := mulw .u 16 bits a b s

/-- mulw_u32 (R153). -/
def execMulwU32 (bits : BitVec 8) (a b : BitVec 32) (s : State) : Result := mulw .u 32 bits a b s

/-- mulw_u64 (R153). -/
def execMulwU64 (bits : BitVec 8) (a b : BitVec 64) (s : State) : Result := mulw .u 64 bits a b s

/-- mulw_u128 (R153). -/
def execMulwU128 (bits : BitVec 8) (a b : BitVec 128) (s : State) : Result := mulw .u 128 bits a b s

/-- mulw_i8 (R153). -/
def execMulwI8 (bits : BitVec 8) (a b : BitVec 8) (s : State) : Result := mulw .i 8 bits a b s

/-- mulw_i16 (R153). -/
def execMulwI16 (bits : BitVec 8) (a b : BitVec 16) (s : State) : Result := mulw .i 16 bits a b s

/-- mulw_i32 (R153). -/
def execMulwI32 (bits : BitVec 8) (a b : BitVec 32) (s : State) : Result := mulw .i 32 bits a b s

/-- mulw_i64 (R153). -/
def execMulwI64 (bits : BitVec 8) (a b : BitVec 64) (s : State) : Result := mulw .i 64 bits a b s

/-- mulw_i128 (R153). -/
def execMulwI128 (bits : BitVec 8) (a b : BitVec 128) (s : State) : Result := mulw .i 128 bits a b s

end Sys2Proof.Machine
end

