-- ==== Sys2Proof/Machine/Dispatch.lean ====
section
/-!
DEFINITION. exec: one arm per instruction, each one call of its meaning.
-/

namespace Sys2Proof.Machine

def exec (i : Instr) (s : State) : Host.Outcome State Fault Refusal :=
  match i with
  | .wrapU8 bits a => Sys2Proof.Machine.execWrapU8 bits a s
  | .wrapU16 bits a => Sys2Proof.Machine.execWrapU16 bits a s
  | .wrapU32 bits a => Sys2Proof.Machine.execWrapU32 bits a s
  | .wrapU64 bits a => Sys2Proof.Machine.execWrapU64 bits a s
  | .wrapU128 bits a => Sys2Proof.Machine.execWrapU128 bits a s
  | .wrapI8 bits a => Sys2Proof.Machine.execWrapI8 bits a s
  | .wrapI16 bits a => Sys2Proof.Machine.execWrapI16 bits a s
  | .wrapI32 bits a => Sys2Proof.Machine.execWrapI32 bits a s
  | .wrapI64 bits a => Sys2Proof.Machine.execWrapI64 bits a s
  | .wrapI128 bits a => Sys2Proof.Machine.execWrapI128 bits a s
  | .notU8 bits a => Sys2Proof.Machine.execNotU8 bits a s
  | .notU16 bits a => Sys2Proof.Machine.execNotU16 bits a s
  | .notU32 bits a => Sys2Proof.Machine.execNotU32 bits a s
  | .notU64 bits a => Sys2Proof.Machine.execNotU64 bits a s
  | .notU128 bits a => Sys2Proof.Machine.execNotU128 bits a s
  | .notI8 bits a => Sys2Proof.Machine.execNotI8 bits a s
  | .notI16 bits a => Sys2Proof.Machine.execNotI16 bits a s
  | .notI32 bits a => Sys2Proof.Machine.execNotI32 bits a s
  | .notI64 bits a => Sys2Proof.Machine.execNotI64 bits a s
  | .notI128 bits a => Sys2Proof.Machine.execNotI128 bits a s
  | .andU8 bits a b => Sys2Proof.Machine.execAndU8 bits a b s
  | .andU16 bits a b => Sys2Proof.Machine.execAndU16 bits a b s
  | .andU32 bits a b => Sys2Proof.Machine.execAndU32 bits a b s
  | .andU64 bits a b => Sys2Proof.Machine.execAndU64 bits a b s
  | .andU128 bits a b => Sys2Proof.Machine.execAndU128 bits a b s
  | .andI8 bits a b => Sys2Proof.Machine.execAndI8 bits a b s
  | .andI16 bits a b => Sys2Proof.Machine.execAndI16 bits a b s
  | .andI32 bits a b => Sys2Proof.Machine.execAndI32 bits a b s
  | .andI64 bits a b => Sys2Proof.Machine.execAndI64 bits a b s
  | .andI128 bits a b => Sys2Proof.Machine.execAndI128 bits a b s
  | .orU8 bits a b => Sys2Proof.Machine.execOrU8 bits a b s
  | .orU16 bits a b => Sys2Proof.Machine.execOrU16 bits a b s
  | .orU32 bits a b => Sys2Proof.Machine.execOrU32 bits a b s
  | .orU64 bits a b => Sys2Proof.Machine.execOrU64 bits a b s
  | .orU128 bits a b => Sys2Proof.Machine.execOrU128 bits a b s
  | .orI8 bits a b => Sys2Proof.Machine.execOrI8 bits a b s
  | .orI16 bits a b => Sys2Proof.Machine.execOrI16 bits a b s
  | .orI32 bits a b => Sys2Proof.Machine.execOrI32 bits a b s
  | .orI64 bits a b => Sys2Proof.Machine.execOrI64 bits a b s
  | .orI128 bits a b => Sys2Proof.Machine.execOrI128 bits a b s
  | .xorU8 bits a b => Sys2Proof.Machine.execXorU8 bits a b s
  | .xorU16 bits a b => Sys2Proof.Machine.execXorU16 bits a b s
  | .xorU32 bits a b => Sys2Proof.Machine.execXorU32 bits a b s
  | .xorU64 bits a b => Sys2Proof.Machine.execXorU64 bits a b s
  | .xorU128 bits a b => Sys2Proof.Machine.execXorU128 bits a b s
  | .xorI8 bits a b => Sys2Proof.Machine.execXorI8 bits a b s
  | .xorI16 bits a b => Sys2Proof.Machine.execXorI16 bits a b s
  | .xorI32 bits a b => Sys2Proof.Machine.execXorI32 bits a b s
  | .xorI64 bits a b => Sys2Proof.Machine.execXorI64 bits a b s
  | .xorI128 bits a b => Sys2Proof.Machine.execXorI128 bits a b s
  | .shlU8 bits a b => Sys2Proof.Machine.execShlU8 bits a b s
  | .shlU16 bits a b => Sys2Proof.Machine.execShlU16 bits a b s
  | .shlU32 bits a b => Sys2Proof.Machine.execShlU32 bits a b s
  | .shlU64 bits a b => Sys2Proof.Machine.execShlU64 bits a b s
  | .shlU128 bits a b => Sys2Proof.Machine.execShlU128 bits a b s
  | .shlI8 bits a b => Sys2Proof.Machine.execShlI8 bits a b s
  | .shlI16 bits a b => Sys2Proof.Machine.execShlI16 bits a b s
  | .shlI32 bits a b => Sys2Proof.Machine.execShlI32 bits a b s
  | .shlI64 bits a b => Sys2Proof.Machine.execShlI64 bits a b s
  | .shlI128 bits a b => Sys2Proof.Machine.execShlI128 bits a b s
  | .shrU8 bits a b => Sys2Proof.Machine.execShrU8 bits a b s
  | .shrU16 bits a b => Sys2Proof.Machine.execShrU16 bits a b s
  | .shrU32 bits a b => Sys2Proof.Machine.execShrU32 bits a b s
  | .shrU64 bits a b => Sys2Proof.Machine.execShrU64 bits a b s
  | .shrU128 bits a b => Sys2Proof.Machine.execShrU128 bits a b s
  | .shrI8 bits a b => Sys2Proof.Machine.execShrI8 bits a b s
  | .shrI16 bits a b => Sys2Proof.Machine.execShrI16 bits a b s
  | .shrI32 bits a b => Sys2Proof.Machine.execShrI32 bits a b s
  | .shrI64 bits a b => Sys2Proof.Machine.execShrI64 bits a b s
  | .shrI128 bits a b => Sys2Proof.Machine.execShrI128 bits a b s
  | .addwU8 bits a b => Sys2Proof.Machine.execAddwU8 bits a b s
  | .addwU16 bits a b => Sys2Proof.Machine.execAddwU16 bits a b s
  | .addwU32 bits a b => Sys2Proof.Machine.execAddwU32 bits a b s
  | .addwU64 bits a b => Sys2Proof.Machine.execAddwU64 bits a b s
  | .addwU128 bits a b => Sys2Proof.Machine.execAddwU128 bits a b s
  | .addwI8 bits a b => Sys2Proof.Machine.execAddwI8 bits a b s
  | .addwI16 bits a b => Sys2Proof.Machine.execAddwI16 bits a b s
  | .addwI32 bits a b => Sys2Proof.Machine.execAddwI32 bits a b s
  | .addwI64 bits a b => Sys2Proof.Machine.execAddwI64 bits a b s
  | .addwI128 bits a b => Sys2Proof.Machine.execAddwI128 bits a b s
  | .subwU8 bits a b => Sys2Proof.Machine.execSubwU8 bits a b s
  | .subwU16 bits a b => Sys2Proof.Machine.execSubwU16 bits a b s
  | .subwU32 bits a b => Sys2Proof.Machine.execSubwU32 bits a b s
  | .subwU64 bits a b => Sys2Proof.Machine.execSubwU64 bits a b s
  | .subwU128 bits a b => Sys2Proof.Machine.execSubwU128 bits a b s
  | .subwI8 bits a b => Sys2Proof.Machine.execSubwI8 bits a b s
  | .subwI16 bits a b => Sys2Proof.Machine.execSubwI16 bits a b s
  | .subwI32 bits a b => Sys2Proof.Machine.execSubwI32 bits a b s
  | .subwI64 bits a b => Sys2Proof.Machine.execSubwI64 bits a b s
  | .subwI128 bits a b => Sys2Proof.Machine.execSubwI128 bits a b s
  | .mulwU8 bits a b => Sys2Proof.Machine.execMulwU8 bits a b s
  | .mulwU16 bits a b => Sys2Proof.Machine.execMulwU16 bits a b s
  | .mulwU32 bits a b => Sys2Proof.Machine.execMulwU32 bits a b s
  | .mulwU64 bits a b => Sys2Proof.Machine.execMulwU64 bits a b s
  | .mulwU128 bits a b => Sys2Proof.Machine.execMulwU128 bits a b s
  | .mulwI8 bits a b => Sys2Proof.Machine.execMulwI8 bits a b s
  | .mulwI16 bits a b => Sys2Proof.Machine.execMulwI16 bits a b s
  | .mulwI32 bits a b => Sys2Proof.Machine.execMulwI32 bits a b s
  | .mulwI64 bits a b => Sys2Proof.Machine.execMulwI64 bits a b s
  | .mulwI128 bits a b => Sys2Proof.Machine.execMulwI128 bits a b s
  | .addoU8 bits a b => Sys2Proof.Machine.execAddoU8 bits a b s
  | .addoU16 bits a b => Sys2Proof.Machine.execAddoU16 bits a b s
  | .addoU32 bits a b => Sys2Proof.Machine.execAddoU32 bits a b s
  | .addoU64 bits a b => Sys2Proof.Machine.execAddoU64 bits a b s
  | .addoU128 bits a b => Sys2Proof.Machine.execAddoU128 bits a b s
  | .addoI8 bits a b => Sys2Proof.Machine.execAddoI8 bits a b s
  | .addoI16 bits a b => Sys2Proof.Machine.execAddoI16 bits a b s
  | .addoI32 bits a b => Sys2Proof.Machine.execAddoI32 bits a b s
  | .addoI64 bits a b => Sys2Proof.Machine.execAddoI64 bits a b s
  | .addoI128 bits a b => Sys2Proof.Machine.execAddoI128 bits a b s
  | .suboU8 bits a b => Sys2Proof.Machine.execSuboU8 bits a b s
  | .suboU16 bits a b => Sys2Proof.Machine.execSuboU16 bits a b s
  | .suboU32 bits a b => Sys2Proof.Machine.execSuboU32 bits a b s
  | .suboU64 bits a b => Sys2Proof.Machine.execSuboU64 bits a b s
  | .suboU128 bits a b => Sys2Proof.Machine.execSuboU128 bits a b s
  | .suboI8 bits a b => Sys2Proof.Machine.execSuboI8 bits a b s
  | .suboI16 bits a b => Sys2Proof.Machine.execSuboI16 bits a b s
  | .suboI32 bits a b => Sys2Proof.Machine.execSuboI32 bits a b s
  | .suboI64 bits a b => Sys2Proof.Machine.execSuboI64 bits a b s
  | .suboI128 bits a b => Sys2Proof.Machine.execSuboI128 bits a b s
  | .muloU8 bits a b => Sys2Proof.Machine.execMuloU8 bits a b s
  | .muloU16 bits a b => Sys2Proof.Machine.execMuloU16 bits a b s
  | .muloU32 bits a b => Sys2Proof.Machine.execMuloU32 bits a b s
  | .muloU64 bits a b => Sys2Proof.Machine.execMuloU64 bits a b s
  | .muloU128 bits a b => Sys2Proof.Machine.execMuloU128 bits a b s
  | .muloI8 bits a b => Sys2Proof.Machine.execMuloI8 bits a b s
  | .muloI16 bits a b => Sys2Proof.Machine.execMuloI16 bits a b s
  | .muloI32 bits a b => Sys2Proof.Machine.execMuloI32 bits a b s
  | .muloI64 bits a b => Sys2Proof.Machine.execMuloI64 bits a b s
  | .muloI128 bits a b => Sys2Proof.Machine.execMuloI128 bits a b s
  | .addsU8 bits a b => Sys2Proof.Machine.execAddsU8 bits a b s
  | .addsU16 bits a b => Sys2Proof.Machine.execAddsU16 bits a b s
  | .addsU32 bits a b => Sys2Proof.Machine.execAddsU32 bits a b s
  | .addsU64 bits a b => Sys2Proof.Machine.execAddsU64 bits a b s
  | .addsU128 bits a b => Sys2Proof.Machine.execAddsU128 bits a b s
  | .addsI8 bits a b => Sys2Proof.Machine.execAddsI8 bits a b s
  | .addsI16 bits a b => Sys2Proof.Machine.execAddsI16 bits a b s
  | .addsI32 bits a b => Sys2Proof.Machine.execAddsI32 bits a b s
  | .addsI64 bits a b => Sys2Proof.Machine.execAddsI64 bits a b s
  | .addsI128 bits a b => Sys2Proof.Machine.execAddsI128 bits a b s
  | .subsU8 bits a b => Sys2Proof.Machine.execSubsU8 bits a b s
  | .subsU16 bits a b => Sys2Proof.Machine.execSubsU16 bits a b s
  | .subsU32 bits a b => Sys2Proof.Machine.execSubsU32 bits a b s
  | .subsU64 bits a b => Sys2Proof.Machine.execSubsU64 bits a b s
  | .subsU128 bits a b => Sys2Proof.Machine.execSubsU128 bits a b s
  | .subsI8 bits a b => Sys2Proof.Machine.execSubsI8 bits a b s
  | .subsI16 bits a b => Sys2Proof.Machine.execSubsI16 bits a b s
  | .subsI32 bits a b => Sys2Proof.Machine.execSubsI32 bits a b s
  | .subsI64 bits a b => Sys2Proof.Machine.execSubsI64 bits a b s
  | .subsI128 bits a b => Sys2Proof.Machine.execSubsI128 bits a b s
  | .mulsU8 bits a b => Sys2Proof.Machine.execMulsU8 bits a b s
  | .mulsU16 bits a b => Sys2Proof.Machine.execMulsU16 bits a b s
  | .mulsU32 bits a b => Sys2Proof.Machine.execMulsU32 bits a b s
  | .mulsU64 bits a b => Sys2Proof.Machine.execMulsU64 bits a b s
  | .mulsU128 bits a b => Sys2Proof.Machine.execMulsU128 bits a b s
  | .mulsI8 bits a b => Sys2Proof.Machine.execMulsI8 bits a b s
  | .mulsI16 bits a b => Sys2Proof.Machine.execMulsI16 bits a b s
  | .mulsI32 bits a b => Sys2Proof.Machine.execMulsI32 bits a b s
  | .mulsI64 bits a b => Sys2Proof.Machine.execMulsI64 bits a b s
  | .mulsI128 bits a b => Sys2Proof.Machine.execMulsI128 bits a b s
  | .divTruncU8 bits a b => Sys2Proof.Machine.execDivTruncU8 bits a b s
  | .divTruncU16 bits a b => Sys2Proof.Machine.execDivTruncU16 bits a b s
  | .divTruncU32 bits a b => Sys2Proof.Machine.execDivTruncU32 bits a b s
  | .divTruncU64 bits a b => Sys2Proof.Machine.execDivTruncU64 bits a b s
  | .divTruncU128 bits a b => Sys2Proof.Machine.execDivTruncU128 bits a b s
  | .divTruncI8 bits a b => Sys2Proof.Machine.execDivTruncI8 bits a b s
  | .divTruncI16 bits a b => Sys2Proof.Machine.execDivTruncI16 bits a b s
  | .divTruncI32 bits a b => Sys2Proof.Machine.execDivTruncI32 bits a b s
  | .divTruncI64 bits a b => Sys2Proof.Machine.execDivTruncI64 bits a b s
  | .divTruncI128 bits a b => Sys2Proof.Machine.execDivTruncI128 bits a b s
  | .remU8 bits a b => Sys2Proof.Machine.execRemU8 bits a b s
  | .remU16 bits a b => Sys2Proof.Machine.execRemU16 bits a b s
  | .remU32 bits a b => Sys2Proof.Machine.execRemU32 bits a b s
  | .remU64 bits a b => Sys2Proof.Machine.execRemU64 bits a b s
  | .remU128 bits a b => Sys2Proof.Machine.execRemU128 bits a b s
  | .remI8 bits a b => Sys2Proof.Machine.execRemI8 bits a b s
  | .remI16 bits a b => Sys2Proof.Machine.execRemI16 bits a b s
  | .remI32 bits a b => Sys2Proof.Machine.execRemI32 bits a b s
  | .remI64 bits a b => Sys2Proof.Machine.execRemI64 bits a b s
  | .remI128 bits a b => Sys2Proof.Machine.execRemI128 bits a b s
  | .divFloorU8 bits a b => Sys2Proof.Machine.execDivFloorU8 bits a b s
  | .divFloorU16 bits a b => Sys2Proof.Machine.execDivFloorU16 bits a b s
  | .divFloorU32 bits a b => Sys2Proof.Machine.execDivFloorU32 bits a b s
  | .divFloorU64 bits a b => Sys2Proof.Machine.execDivFloorU64 bits a b s
  | .divFloorU128 bits a b => Sys2Proof.Machine.execDivFloorU128 bits a b s
  | .divFloorI8 bits a b => Sys2Proof.Machine.execDivFloorI8 bits a b s
  | .divFloorI16 bits a b => Sys2Proof.Machine.execDivFloorI16 bits a b s
  | .divFloorI32 bits a b => Sys2Proof.Machine.execDivFloorI32 bits a b s
  | .divFloorI64 bits a b => Sys2Proof.Machine.execDivFloorI64 bits a b s
  | .divFloorI128 bits a b => Sys2Proof.Machine.execDivFloorI128 bits a b s
  | .modU8 bits a b => Sys2Proof.Machine.execModU8 bits a b s
  | .modU16 bits a b => Sys2Proof.Machine.execModU16 bits a b s
  | .modU32 bits a b => Sys2Proof.Machine.execModU32 bits a b s
  | .modU64 bits a b => Sys2Proof.Machine.execModU64 bits a b s
  | .modU128 bits a b => Sys2Proof.Machine.execModU128 bits a b s
  | .modI8 bits a b => Sys2Proof.Machine.execModI8 bits a b s
  | .modI16 bits a b => Sys2Proof.Machine.execModI16 bits a b s
  | .modI32 bits a b => Sys2Proof.Machine.execModI32 bits a b s
  | .modI64 bits a b => Sys2Proof.Machine.execModI64 bits a b s
  | .modI128 bits a b => Sys2Proof.Machine.execModI128 bits a b s
  | .clzU8 bits a => Sys2Proof.Machine.execClzU8 bits a s
  | .clzU16 bits a => Sys2Proof.Machine.execClzU16 bits a s
  | .clzU32 bits a => Sys2Proof.Machine.execClzU32 bits a s
  | .clzU64 bits a => Sys2Proof.Machine.execClzU64 bits a s
  | .clzU128 bits a => Sys2Proof.Machine.execClzU128 bits a s
  | .clzI8 bits a => Sys2Proof.Machine.execClzI8 bits a s
  | .clzI16 bits a => Sys2Proof.Machine.execClzI16 bits a s
  | .clzI32 bits a => Sys2Proof.Machine.execClzI32 bits a s
  | .clzI64 bits a => Sys2Proof.Machine.execClzI64 bits a s
  | .clzI128 bits a => Sys2Proof.Machine.execClzI128 bits a s
  | .ctzU8 bits a => Sys2Proof.Machine.execCtzU8 bits a s
  | .ctzU16 bits a => Sys2Proof.Machine.execCtzU16 bits a s
  | .ctzU32 bits a => Sys2Proof.Machine.execCtzU32 bits a s
  | .ctzU64 bits a => Sys2Proof.Machine.execCtzU64 bits a s
  | .ctzU128 bits a => Sys2Proof.Machine.execCtzU128 bits a s
  | .ctzI8 bits a => Sys2Proof.Machine.execCtzI8 bits a s
  | .ctzI16 bits a => Sys2Proof.Machine.execCtzI16 bits a s
  | .ctzI32 bits a => Sys2Proof.Machine.execCtzI32 bits a s
  | .ctzI64 bits a => Sys2Proof.Machine.execCtzI64 bits a s
  | .ctzI128 bits a => Sys2Proof.Machine.execCtzI128 bits a s
  | .popcountU8 bits a => Sys2Proof.Machine.execPopcountU8 bits a s
  | .popcountU16 bits a => Sys2Proof.Machine.execPopcountU16 bits a s
  | .popcountU32 bits a => Sys2Proof.Machine.execPopcountU32 bits a s
  | .popcountU64 bits a => Sys2Proof.Machine.execPopcountU64 bits a s
  | .popcountU128 bits a => Sys2Proof.Machine.execPopcountU128 bits a s
  | .popcountI8 bits a => Sys2Proof.Machine.execPopcountI8 bits a s
  | .popcountI16 bits a => Sys2Proof.Machine.execPopcountI16 bits a s
  | .popcountI32 bits a => Sys2Proof.Machine.execPopcountI32 bits a s
  | .popcountI64 bits a => Sys2Proof.Machine.execPopcountI64 bits a s
  | .popcountI128 bits a => Sys2Proof.Machine.execPopcountI128 bits a s
  | .byteswapU8 bits a => Sys2Proof.Machine.execByteswapU8 bits a s
  | .byteswapU16 bits a => Sys2Proof.Machine.execByteswapU16 bits a s
  | .byteswapU32 bits a => Sys2Proof.Machine.execByteswapU32 bits a s
  | .byteswapU64 bits a => Sys2Proof.Machine.execByteswapU64 bits a s
  | .byteswapU128 bits a => Sys2Proof.Machine.execByteswapU128 bits a s
  | .byteswapI8 bits a => Sys2Proof.Machine.execByteswapI8 bits a s
  | .byteswapI16 bits a => Sys2Proof.Machine.execByteswapI16 bits a s
  | .byteswapI32 bits a => Sys2Proof.Machine.execByteswapI32 bits a s
  | .byteswapI64 bits a => Sys2Proof.Machine.execByteswapI64 bits a s
  | .byteswapI128 bits a => Sys2Proof.Machine.execByteswapI128 bits a s
  | .bitreverseU8 bits a => Sys2Proof.Machine.execBitreverseU8 bits a s
  | .bitreverseU16 bits a => Sys2Proof.Machine.execBitreverseU16 bits a s
  | .bitreverseU32 bits a => Sys2Proof.Machine.execBitreverseU32 bits a s
  | .bitreverseU64 bits a => Sys2Proof.Machine.execBitreverseU64 bits a s
  | .bitreverseU128 bits a => Sys2Proof.Machine.execBitreverseU128 bits a s
  | .bitreverseI8 bits a => Sys2Proof.Machine.execBitreverseI8 bits a s
  | .bitreverseI16 bits a => Sys2Proof.Machine.execBitreverseI16 bits a s
  | .bitreverseI32 bits a => Sys2Proof.Machine.execBitreverseI32 bits a s
  | .bitreverseI64 bits a => Sys2Proof.Machine.execBitreverseI64 bits a s
  | .bitreverseI128 bits a => Sys2Proof.Machine.execBitreverseI128 bits a s
  | .makeU128 a b => Sys2Proof.Machine.execMakeU128 a b s
  | .makeI128 a b => Sys2Proof.Machine.execMakeI128 a b s
  | .hiU128 a => Sys2Proof.Machine.execHiU128 a s
  | .hiI128 a => Sys2Proof.Machine.execHiI128 a s
  | .loU128 a => Sys2Proof.Machine.execLoU128 a s
  | .loI128 a => Sys2Proof.Machine.execLoI128 a s
  | .cmpU128 a b => Sys2Proof.Machine.execCmpU128 a b s
  | .cmpI128 a b => Sys2Proof.Machine.execCmpI128 a b s

end Sys2Proof.Machine
end

