-- ==== Sys2Proof/Machine/ByFields.lean ====
section
/-!
DEFINITION. The meaning of a request by its fields: the shared operation each row runs, with no instruction built in between.
It is equal to `exec` of the decoded instruction (`exec_rowOf`); `step` is compiled through it.
-/

namespace Sys2Proof.Machine

/-- The shared operation that the row of these fields runs (R87). -/
def execFields (f : Fields) (s : State) : Result :=
  match f.op with
  | .wrap => wrap f.sg f.w.bits f.bits (f.a.setWidth f.w.bits) s
  | .not => not f.sg f.w.bits f.bits (f.a.setWidth f.w.bits) s
  | .and => and f.sg f.w.bits f.bits (f.a.setWidth f.w.bits) (f.b.setWidth f.w.bits) s
  | .or => or f.sg f.w.bits f.bits (f.a.setWidth f.w.bits) (f.b.setWidth f.w.bits) s
  | .xor => xor f.sg f.w.bits f.bits (f.a.setWidth f.w.bits) (f.b.setWidth f.w.bits) s
  | .shl => shl f.sg f.w.bits f.bits (f.a.setWidth f.w.bits) (f.b.setWidth 8) s
  | .shr => shr f.sg f.w.bits f.bits (f.a.setWidth f.w.bits) (f.b.setWidth 8) s
  | .addw => addw f.sg f.w.bits f.bits (f.a.setWidth f.w.bits) (f.b.setWidth f.w.bits) s
  | .subw => subw f.sg f.w.bits f.bits (f.a.setWidth f.w.bits) (f.b.setWidth f.w.bits) s
  | .mulw => mulw f.sg f.w.bits f.bits (f.a.setWidth f.w.bits) (f.b.setWidth f.w.bits) s
  | .addo => addo f.sg f.w.bits f.bits (f.a.setWidth f.w.bits) (f.b.setWidth f.w.bits) s
  | .subo => subo f.sg f.w.bits f.bits (f.a.setWidth f.w.bits) (f.b.setWidth f.w.bits) s
  | .mulo => mulo f.sg f.w.bits f.bits (f.a.setWidth f.w.bits) (f.b.setWidth f.w.bits) s
  | .adds => adds f.sg f.w.bits f.bits (f.a.setWidth f.w.bits) (f.b.setWidth f.w.bits) s
  | .subs => subs f.sg f.w.bits f.bits (f.a.setWidth f.w.bits) (f.b.setWidth f.w.bits) s
  | .muls => muls f.sg f.w.bits f.bits (f.a.setWidth f.w.bits) (f.b.setWidth f.w.bits) s
  | .divTrunc => divTrunc f.sg f.w.bits f.bits (f.a.setWidth f.w.bits) (f.b.setWidth f.w.bits) s
  | .rem => rem f.sg f.w.bits f.bits (f.a.setWidth f.w.bits) (f.b.setWidth f.w.bits) s
  | .divFloor => divFloor f.sg f.w.bits f.bits (f.a.setWidth f.w.bits) (f.b.setWidth f.w.bits) s
  | .mod => mod f.sg f.w.bits f.bits (f.a.setWidth f.w.bits) (f.b.setWidth f.w.bits) s
  | .clz => clz f.sg f.w.bits f.bits (f.a.setWidth f.w.bits) s
  | .ctz => ctz f.sg f.w.bits f.bits (f.a.setWidth f.w.bits) s
  | .popcount => popcount f.sg f.w.bits f.bits (f.a.setWidth f.w.bits) s
  | .byteswap => byteswap f.sg f.w.bits f.bits (f.a.setWidth f.w.bits) s
  | .bitreverse => bitreverse f.sg f.w.bits f.bits (f.a.setWidth f.w.bits) s
  | .make => make f.sg (f.a.setWidth 64) (f.b.setWidth 64) s
  | .hi => hi f.sg f.a s
  | .lo => lo f.sg f.a s
  | .cmp => cmp f.sg f.a f.b s

/-- Each of the 258 arms of `exec` runs the shared operation of its own row, signedness and width. -/
theorem exec_rowOf (f : Fields) (s : State) : exec (rowOf f) s = execFields f s := by
  rcases f with ⟨op, sg, w, bits, a, b⟩
  cases op <;> cases sg <;> cases w <;> rfl

end Sys2Proof.Machine
end

