-- ==== Sys2Proof/Machine/Step.lean ====
section
/-!
DEFINITION. One step of the block: the host's next action, taken whole (10_state.md R44, 70_reset_and_hazards.md R340), and
where a host puts a request so that the next step runs it.
-/

namespace Sys2Proof.Machine

/-- One step (R44): a request is decoded and executed, or rejected with its fault; a register is read; the block is reset; or
the host makes no action. -/
noncomputable def step (s : State) : Host.Outcome State Fault Refusal :=
  match nextAction s with
  | none => idle s
  | some (.request r, t) =>
    match decode r with
    | .ok i => exec i t
    | .error c => rejectRequest c t
  | some (.read n, t) => .next (hostRead n t)
  | some (.reset, t) => .next (resetBlock t)

/-- The step as compiled code runs it: the request's fields are executed with no instruction built in between. -/
def stepByFields (s : State) : Host.Outcome State Fault Refusal :=
  match nextAction s with
  | none => idle s
  | some (.request r, t) =>
    match decodeFields r with
    | .ok f => execFields f t
    | .error c => rejectRequest c t
  | some (.read n, t) => .next (hostRead n t)
  | some (.reset, t) => .next (resetBlock t)

/-- The compiled form is the step. -/
@[csimp] theorem step_eq_stepByFields : @step = @stepByFields := by
  funext s
  unfold step stepByFields decode
  rcases nextAction s with _ | ⟨_ | _ | _, t⟩ <;> try rfl
  rename_i r
  cases h : decodeFields r with
  | error c => simp only [h]
  | ok f => simp only [h, exec_rowOf]

/-- The state in which the host's next action is the request with these bits; nothing else changes (log entry 1). -/
def State.withFetchWord (s : State) (nbits w : Nat) : State :=
  { s with host := .request (requestOfNat nbits w) :: s.host }

end Sys2Proof.Machine
end

