-- ==== Sys2Proof/Machine/Assembler.lean ====
section
/-!
DEFINITION. The assembler syntax of 30_encoding.md R95 to R97: mnemonics, operands, and the one request a line stands for.
It is no part of the block: `step` does not use it.
-/

namespace Sys2Proof.Machine

/-- The mnemonic stem of an operation (R87). -/
def stem : Op → List Char
  | .wrap => ['w', 'r', 'a', 'p']
  | .not => ['n', 'o', 't']
  | .and => ['a', 'n', 'd']
  | .or => ['o', 'r']
  | .xor => ['x', 'o', 'r']
  | .shl => ['s', 'h', 'l']
  | .shr => ['s', 'h', 'r']
  | .addw => ['a', 'd', 'd', 'w']
  | .subw => ['s', 'u', 'b', 'w']
  | .mulw => ['m', 'u', 'l', 'w']
  | .addo => ['a', 'd', 'd', 'o']
  | .subo => ['s', 'u', 'b', 'o']
  | .mulo => ['m', 'u', 'l', 'o']
  | .adds => ['a', 'd', 'd', 's']
  | .subs => ['s', 'u', 'b', 's']
  | .muls => ['m', 'u', 'l', 's']
  | .divTrunc => ['d', 'i', 'v', '_', 't', 'r', 'u', 'n', 'c']
  | .rem => ['r', 'e', 'm']
  | .divFloor => ['d', 'i', 'v', '_', 'f', 'l', 'o', 'o', 'r']
  | .mod => ['m', 'o', 'd']
  | .clz => ['c', 'l', 'z']
  | .ctz => ['c', 't', 'z']
  | .popcount => ['p', 'o', 'p', 'c', 'o', 'u', 'n', 't']
  | .byteswap => ['b', 'y', 't', 'e', 's', 'w', 'a', 'p']
  | .bitreverse => ['b', 'i', 't', 'r', 'e', 'v', 'e', 'r', 's', 'e']
  | .make => ['m', 'a', 'k', 'e']
  | .hi => ['h', 'i']
  | .lo => ['l', 'o']
  | .cmp => ['c', 'm', 'p']

/-- The tag of a signedness and a container width: `u` or `i`, then N in decimal (R95). -/
def rowTag (sg : Sign) (w : Width) : List Char :=
  (match sg with | .u => 'u' | .i => 'i') ::
    (match w with
      | .w8 => ['8']
      | .w16 => ['1', '6']
      | .w32 => ['3', '2']
      | .w64 => ['6', '4']
      | .w128 => ['1', '2', '8'])

/-- The mnemonic of a row, `<stem>_<s><N>` (R95). -/
def mnemonic (op : Op) (sg : Sign) (w : Width) : List Char := stem op ++ '_' :: rowTag sg w

/-- A literal operand: a decimal integer, or a hexadecimal bit pattern (R96). -/
inductive Literal where
  | dec (v : Int)
  | hex (p : Nat)
deriving DecidableEq, Repr

/-- The operand of width w a literal stands for: `enc_w(v)`, or a pattern of at most w bits, zero-extended (R96). -/
def Literal.encode (w : Nat) : Literal → Option (BitVec w)
  | .dec v => some (enc w v)
  | .hex p => if p < 2 ^ w then some (BitVec.ofNat w p) else none

/-- A line: the mnemonic's row, the LogicalWidth where it is written, and the operands (R96). -/
structure AsmLine where
  op : Op
  sg : Sign
  w : Width
  bits : Option Nat
  operands : List Literal
deriving DecidableEq, Repr

/-- BITS of a line: written for an operation that takes it, absent (and 0) for MAKE, HI, LO and CMP (R86, R96). -/
def bitsOfLine (l : AsmLine) : Option (BitVec 8) :=
  match l.op.only128, l.bits with
  | true, none => if l.w = .w128 then some 0#8 else none
  | false, some n => if n < 256 then some (BitVec.ofNat 8 n) else none
  | _, _ => none

/-- The lanes of a line's operands: as many as the operation takes, each at its width (R84). -/
def lanesOfLine (l : AsmLine) : Option (BitVec 128 × BitVec 128) :=
  match l.operands with
  | [x] =>
    if l.op.widthB l.w = 0 then (x.encode (l.op.widthA l.w)).map fun a => (a.setWidth 128, 0#128) else none
  | [x, y] =>
    if l.op.widthB l.w = 0 then none
    else
      (x.encode (l.op.widthA l.w)).bind fun a =>
        (y.encode (l.op.widthB l.w)).map fun b => (a.setWidth 128, b.setWidth 128)
  | _ => none

/-- The one request of a line (R97), or nothing where the line is not of the syntax. -/
def assemble (l : AsmLine) : Option Request :=
  (bitsOfLine l).bind fun bits =>
    (lanesOfLine l).map fun ab =>
      ⟨packWord (opCode l.op) (signBit l.sg) (widthCode l.w) bits, ab.1, ab.2⟩

/-! ## From text

White space is the space character only; a hexadecimal digit may be of either case (DESIGN CHOICE, safe: log entry 12). -/

/-- The value of a decimal digit. -/
def decDigit (c : Char) : Option Nat :=
  if 48 ≤ c.toNat ∧ c.toNat ≤ 57 then some (c.toNat - 48) else none

/-- The value of a hexadecimal digit. -/
def hexDigit (c : Char) : Option Nat :=
  if 48 ≤ c.toNat ∧ c.toNat ≤ 57 then some (c.toNat - 48)
  else if 65 ≤ c.toNat ∧ c.toNat ≤ 70 then some (c.toNat - 55)
  else if 97 ≤ c.toNat ∧ c.toNat ≤ 102 then some (c.toNat - 87)
  else none

/-- The number of digits read after `acc`, in a base. -/
def digitsFrom (digit : Char → Option Nat) (base : Nat) : Nat → List Char → Option Nat
  | acc, [] => some acc
  | acc, c :: cs => (digit c).bind fun d => digitsFrom digit base (acc * base + d) cs

/-- A number of at least one digit. -/
def number (digit : Char → Option Nat) (base : Nat) : List Char → Option Nat
  | [] => none
  | cs => digitsFrom digit base 0 cs

/-- A literal: `0x` and hexadecimal digits, or a decimal integer with an optional `-` (R96). -/
def parseLiteral : List Char → Option Literal
  | '0' :: 'x' :: cs => (number hexDigit 16 cs).map Literal.hex
  | '-' :: cs => (number decDigit 10 cs).map fun v => Literal.dec (-(v : Int))
  | cs => (number decDigit 10 cs).map fun v => Literal.dec v

/-- The pieces of a text between occurrences of a character. -/
def splitAtChar (sep : Char) : List Char → List (List Char)
  | [] => [[]]
  | c :: cs =>
    if c = sep then [] :: splitAtChar sep cs
    else
      match splitAtChar sep cs with
      | [] => [[c]]
      | p :: ps => (c :: p) :: ps

/-- A text without the spaces at its two ends. -/
def trimSpaces (cs : List Char) : List Char :=
  ((cs.dropWhile (· == ' ')).reverse.dropWhile (· == ' ')).reverse

/-- All of a list's answers, if every one is there. -/
def allOf {α β : Type} (f : α → Option β) : List α → Option (List β)
  | [] => some []
  | x :: xs => (f x).bind fun y => (allOf f xs).map fun ys => y :: ys

/-- Every combination of operation, signedness and width. -/
def everyRow : List (Op × Sign × Width) :=
  [Op.wrap, .not, .and, .or, .xor, .shl, .shr, .addw, .subw, .mulw, .addo, .subo, .mulo, .adds, .subs, .muls,
   .divTrunc, .rem, .divFloor, .mod, .clz, .ctz, .popcount, .byteswap, .bitreverse, .make, .hi, .lo, .cmp].flatMap fun op =>
    [Sign.u, .i].flatMap fun sg => [Width.w8, .w16, .w32, .w64, .w128].map fun w => (op, sg, w)

/-- The row a mnemonic names (R95). -/
def rowOfMnemonic (m : List Char) : Option (Op × Sign × Width) :=
  everyRow.find? fun r => mnemonic r.1 r.2.1 r.2.2 == m

/-- A line of assembler text: the mnemonic, then the LogicalWidth where the operation takes one, then the operands, separated
by commas (R96). -/
def parseLine (text : List Char) : Option AsmLine :=
  let head := (trimSpaces text).takeWhile (· != ' ')
  let rest := (trimSpaces text).dropWhile (· != ' ')
  (rowOfMnemonic head).bind fun r =>
    match r.1.only128, (splitAtChar ',' rest).map trimSpaces with
    | true, args => (allOf parseLiteral args).map fun ops => ⟨r.1, r.2.1, r.2.2, none, ops⟩
    | false, b :: args =>
      (number decDigit 10 b).bind fun n => (allOf parseLiteral args).map fun ops => ⟨r.1, r.2.1, r.2.2, some n, ops⟩
    | false, [] => none

/-- The one request of a line of text (R97). -/
def assembleText (text : List Char) : Option Request := (parseLine text).bind assemble

end Sys2Proof.Machine
end

