-- ==== Sys2Proof/Machine/EmulatedPath.lean ====
section
/-!
DEFINITION. The spec's second descriptions of the same values: the 128-bit operations composed from 64-bit halves
(45_int128.md R244 to R248), the right shift by a sign mask (R128), the two-stage wrap (R150), the composed overflow flag
(R171), saturation by sign combination (R191), floor division by sign correction (R215, R249) and the recursive bit units
(R278). `exec` does not use them: no result depends on the path (R240, R270), and the model needs only one (log entry 10).
-/

namespace Sys2Proof.Machine

/-- A bitwise operation half by half (R245). -/
def emuBitwise (op : BitVec 64 → BitVec 64 → BitVec 64) (a b : BitVec 128) : BitVec 128 :=
  op (hi64 a) (hi64 b) ++ op (lo64 a) (lo64 b)

/-- The complement of both halves (R245). -/
def emuComplement (a : BitVec 128) : BitVec 128 := (~~~hi64 a) ++ (~~~lo64 a)

/-- Addition of halves with the carry of the low halves (R246). -/
def emuAdd (a b : BitVec 128) : BitVec 128 :=
  let lo := lo64 a + lo64 b
  let carry := if lo.toNat < (lo64 a).toNat then 1#64 else 0#64
  (hi64 a + hi64 b + carry) ++ lo

/-- Subtraction of halves with the borrow of the low halves (R246). -/
def emuSub (a b : BitVec 128) : BitVec 128 :=
  let borrow := if (lo64 a).toNat < (lo64 b).toNat then 1#64 else 0#64
  (hi64 a - hi64 b - borrow) ++ (lo64 a - lo64 b)

/-- The left shift by n of 0..127, by halves (R247). -/
def emuShl (a : BitVec 128) (n : Nat) : BitVec 128 :=
  if n = 0 then a
  else if n < 64 then (hi64 a <<< n ||| lo64 a >>> (64 - n)) ++ (lo64 a <<< n)
  else (lo64 a <<< (n - 64)) ++ 0#64

/-- The right shift by n of 0..127, by halves: logical for s = u, arithmetic for s = i (R247). -/
def emuShr (sg : Sign) (a : BitVec 128) (n : Nat) : BitVec 128 :=
  let upper := fun k => match sg with
    | .u => hi64 a >>> k
    | .i => (hi64 a).sshiftRight k
  let fill := match sg with
    | .u => 0#64
    | .i => if (hi64 a).getLsbD 63 then BitVec.allOnes 64 else 0#64
  if n = 0 then a
  else if n < 64 then upper n ++ (lo64 a >>> n ||| hi64 a <<< (64 - n))
  else fill ++ upper (n - 64)

/-- The widening 64 x 64 to 128 multiply, the leaf routine of the emulated path (R248). -/
def wideMul (x y : BitVec 64) : BitVec 128 := BitVec.ofNat 128 (x.toNat * y.toNat)

/-- The wrapped 128-bit product from the widening multiply and two cross products (R248). -/
def emuMul (a b : BitVec 128) : BitVec 128 :=
  wideMul (lo64 a) (lo64 b) + (hi64 a * lo64 b + lo64 a * hi64 b).setWidth 128 <<< 64

/-- The three-way compare, upper halves first, then lower halves as unsigned values (R244). -/
def emuCmp (sg : Sign) (a b : BitVec 128) : Int :=
  if val sg (hi64 a) = val sg (hi64 b) then threeWay (val .u (lo64 a)) (val .u (lo64 b))
  else threeWay (val sg (hi64 a)) (val sg (hi64 b))

/-- The arithmetic right shift built from a logical one by XOR with a sign mask before and after (R128). -/
def signMaskShr {n : Nat} (a : BitVec n) (amt : Nat) : BitVec n :=
  let m := if a.getLsbD (n - 1) then BitVec.allOnes n else 0#n
  ((a ^^^ m) >>> amt) ^^^ m

/-- The overflow flag as the source composes it: the exact result is outside the N-bit range, or the N-bit result `enc_N`
of it is outside the range of (s, bits) (R171, 90_conflicts.md C2). -/
def composedFlag (sg : Sign) (n bits : Nat) (exact : Int) : Bool :=
  overflowFlag sg n exact || overflowFlag sg bits (val sg (enc n exact))

/-- The bound saturating addition goes to on overflow, by the signs of the operands (R191). -/
def addBound (sg : Sign) (bits : Nat) (x y : Int) : Int :=
  match sg with
  | .u => maxInt .u bits
  | .i => if 0 ≤ x ∧ 0 ≤ y then maxInt .i bits else minInt .i bits

/-- The bound saturating subtraction goes to on overflow (R191). -/
def subBound (sg : Sign) (bits : Nat) (x y : Int) : Int :=
  match sg with
  | .u => minInt .u bits
  | .i => if 0 ≤ x ∧ y < 0 then maxInt .i bits else minInt .i bits

/-- The bound saturating multiplication goes to on overflow (R191). -/
def mulBound (sg : Sign) (bits : Nat) (x y : Int) : Int :=
  match sg with
  | .u => maxInt .u bits
  | .i => if x < 0 ↔ y < 0 then maxInt .i bits else minInt .i bits

/-- A saturated result: the given bound on overflow, the exact value otherwise (R191). -/
def saturateTo (bound : Int) (sg : Sign) (bits : Nat) (exact : Int) : Int :=
  if overflowFlag sg bits exact then bound else exact

/-- Whether the floor variants differ from the truncating ones: a non-zero remainder whose sign is not the divisor's (R215). -/
def needsFloor (a b : Int) : Bool := decide (trem a b ≠ 0) && (decide (trem a b < 0) != decide (b < 0))

/-- Floor division from truncating division by sign correction (R215, R249). -/
def correctedDiv (a b : Int) : Int := if needsFloor a b then tdiv a b - 1 else tdiv a b

/-- Floored modulo from the truncating remainder by sign correction (R215, R249). -/
def correctedMod (a b : Int) : Int := if needsFloor a b then trem a b + b else trem a b

/-! ## Recursive bit units (R278)

`levels` is how often a width is halved down to 8 bits. The 8-bit units are the operations themselves (log entry 10). -/

/-- How often a container width is halved to reach 8 bits. -/
def levelsOf : Width → Nat
  | .w8 => 0
  | .w16 => 1
  | .w32 => 2
  | .w64 => 3
  | .w128 => 4

/-- `x.hi`, the upper half of a value of even width (R278). -/
def upperHalf {n : Nat} (x : BitVec n) : BitVec (n / 2) := x.extractLsb' (n / 2) (n / 2)

/-- `x.lo`, the lower half of a value of even width (R278). -/
def lowerHalf {n : Nat} (x : BitVec n) : BitVec (n / 2) := x.extractLsb' 0 (n / 2)

/-- `popcnt_N` from the counts of the halves. -/
def recPopcnt : (levels : Nat) → {n : Nat} → BitVec n → Nat
  | 0, _, x => popcnt x
  | k + 1, _, x => recPopcnt k (upperHalf x) + recPopcnt k (lowerHalf x)

/-- `ctz_N` from the halves. -/
def recCtz : (levels : Nat) → {n : Nat} → BitVec n → Nat
  | 0, _, x => trailingZeros x
  | k + 1, n, x =>
    if lowerHalf x ≠ 0#(n / 2) then recCtz k (lowerHalf x) else n / 2 + recCtz k (upperHalf x)

/-- `clz_N` from the halves. -/
def recClz : (levels : Nat) → {n : Nat} → BitVec n → Nat
  | 0, _, x => leadingZeros x
  | k + 1, n, x =>
    if upperHalf x ≠ 0#(n / 2) then recClz k (upperHalf x) else n / 2 + recClz k (lowerHalf x)

/-- `bswap_N` from the halves, `bswap_8` the identity (90_conflicts.md C5). -/
def recSwap : (levels : Nat) → {n : Nat} → BitVec n → BitVec n
  | 0, _, x => x
  | k + 1, n, x => (recSwap k (lowerHalf x) ++ recSwap k (upperHalf x)).setWidth n

/-- `brev_N` from the halves. -/
def recReverse : (levels : Nat) → {n : Nat} → BitVec n → BitVec n
  | 0, _, x => reverseBits x
  | k + 1, n, x => (recReverse k (lowerHalf x) ++ recReverse k (upperHalf x)).setWidth n

/-- `v = zext_N(A[bits-1:0])`, what the recursive units read (R278). -/
def logicalPattern (bits : Nat) {n : Nat} (a : BitVec n) : BitVec n := (lowBits bits a).setWidth n

/-- CLZ from the recursive unit: the extra leading bits of the container are taken off (R272, R278). -/
def recursiveClz (w : Width) (bits : Nat) (a : BitVec w.bits) : Nat :=
  recClz (levelsOf w) (logicalPattern bits a) - (w.bits - bits)

/-- CTZ from the recursive unit (R278). -/
def recursiveCtz (w : Width) (bits : Nat) (a : BitVec w.bits) : Nat :=
  min (recCtz (levelsOf w) (logicalPattern bits a)) bits

/-- POPCOUNT from the recursive unit (R278). -/
def recursivePopcount (w : Width) (bits : Nat) (a : BitVec w.bits) : Nat :=
  recPopcnt (levelsOf w) (logicalPattern bits a)

/-- BYTESWAP from the recursive unit: shifted down by N - bits, then WRAP (R278). -/
def recursiveByteswap (sg : Sign) (w : Width) (bits : Nat) (a : BitVec w.bits) : BitVec w.bits :=
  wrapValue sg bits (recSwap (levelsOf w) (logicalPattern bits a) >>> (w.bits - bits))

/-- BITREVERSE from the recursive unit: shifted down by N - bits, then WRAP (R278). -/
def recursiveBitreverse (sg : Sign) (w : Width) (bits : Nat) (a : BitVec w.bits) : BitVec w.bits :=
  wrapValue sg bits (recReverse (levelsOf w) (logicalPattern bits a) >>> (w.bits - bits))

end Sys2Proof.Machine
end

