-- ==== Sys2Proof/Machine/CheckOrder.lean ====
section
/-!
DEFINITION. The decode and check sequence of a request as 60_exceptions.md R310 lists it, read from the numbers of the control
word and not through the decoder. `exec` and `step` do not use it; the statements compare them with it.
-/

namespace Sys2Proof.Machine

/-- OP as a number (R81). -/
def opNumber (cw : ControlWord) : Nat := cw.toNat % 64

/-- S as a signedness (R81, R82). -/
def signNumber (cw : ControlWord) : Sign := if cw.toNat / 64 % 2 = 0 then .u else .i

/-- W as a number (R81). -/
def widthNumber (cw : ControlWord) : Nat := cw.toNat / 128 % 8

/-- BITS as a number (R81, R86). -/
def bitsNumber (cw : ControlWord) : Nat := cw.toNat / 1024 % 256

/-- CW[31:18] as a number (R81). -/
def reservedNumber (cw : ControlWord) : Nat := cw.toNat / 2 ^ 18

/-- The OP values of the opcode map (R87). -/
def listedOps : List Nat :=
  [0x00, 0x01, 0x02, 0x03, 0x04, 0x05, 0x06, 0x08, 0x09, 0x0A, 0x0C, 0x0D, 0x0E, 0x10, 0x11, 0x12, 0x14, 0x15, 0x16, 0x17,
   0x18, 0x19, 0x1A, 0x1B, 0x1C, 0x20, 0x21, 0x22, 0x23]

/-- MAKE, HI, LO and CMP (R87). -/
def only128Ops : List Nat := [0x20, 0x21, 0x22, 0x23]

/-- The operations with two N-bit operands (R84, second row). -/
def twoOperandOps : List Nat :=
  [0x02, 0x03, 0x04, 0x08, 0x09, 0x0A, 0x0C, 0x0D, 0x0E, 0x10, 0x11, 0x12, 0x14, 0x15, 0x16, 0x17]

/-- DIV_TRUNC, REM, DIV_FLOOR and MOD (R87). -/
def divisionOps : List Nat := [0x14, 0x15, 0x16, 0x17]

/-- The 13 rows of R310 for a request: whether each applies, and the fault it raises. -/
def checkRows (r : Request) : List (Bool × FaultCode) :=
  let op := opNumber r.cw
  let sg := signNumber r.cw
  let w := widthNumber r.cw
  let bits := bitsNumber r.cw
  let n := 8 * 2 ^ w
  let a := r.a.setWidth n
  let b := r.b.setWidth n
  let takesBits := !only128Ops.contains op
  [(decide (reservedNumber r.cw ≠ 0), .illegalEncoding),
   (decide (5 ≤ w), .illegalEncoding),
   (decide (op = 0x0F ∨ op = 0x13), .reservedOp),
   (!listedOps.contains op, .illegalEncoding),
   (!takesBits && decide (w ≠ 4), .illegalEncoding),
   (!takesBits && decide (bits ≠ 0), .illegalEncoding),
   (takesBits && decide (bits = 0 ∨ n < bits), .badLogicalWidth),
   (decide (op = 0x1B) && decide (bits % 8 ≠ 0), .byteSwapWidth),
   (takesBits && decide (op ≠ 0x00) && !canonical sg bits a, .nonCanonicalOperand),
   (twoOperandOps.contains op && !canonical sg bits b, .nonCanonicalOperand),
   (decide (op = 0x05 ∨ op = 0x06) && decide (n ≤ (r.b.setWidth 8).toNat), .shiftAmountOutOfRange),
   (divisionOps.contains op && decide (val sg b = 0), .divideByZero),
   (divisionOps.contains op && decide (sg = .i) && decide (a.toInt = minInt .i bits) && decide (b.toInt = -1),
     .divideOverflow)]

/-- The fault of a request: the first row of R310 that applies, if one does (R311). -/
def firstCheck (r : Request) : Option FaultCode := firstFault (checkRows r)

end Sys2Proof.Machine
end

