-- ==== Sys2Proof/Safety.lean ====
section
/-!
DEFINITION. The terms statements use: legal LogicalWidths, the state a fault leaves, the end of a run (70_reset_and_hazards.md
R348), and the invariant of reachable states.
-/

namespace Sys2Proof.Machine

/-- A LogicalWidth a container admits: 1..N (R8). -/
abbrev LegalWidth (w : Width) (bits : BitVec 8) : Prop := 1 ≤ bits.toNat ∧ bits.toNat ≤ w.bits

/-- The state that a fault with code `c` leaves behind an unfaulted state (R312): FAULT holds the code, RES and OVF no value. -/
def faulted (c : FaultCode) (s : State) : State := { s with fault := c.code, res := none, ovf := none }

/-- The state that a request completing with result `y` and no flag leaves (R32, R33). -/
def completed {n : Nat} (y : BitVec n) (s : State) : State := { s with res := some ⟨n, y⟩, ovf := none }

/-- The state that a request completing with result `y` and flag `f` leaves (R32, R33). -/
def completedWithFlag {n : Nat} (y : BitVec n) (f : Bool) (s : State) : State :=
  { s with res := some ⟨n, y⟩, ovf := some f }

/-- A request whose LogicalWidth is not legal takes BadLogicalWidth (R303, R310 row 7). -/
abbrev FaultsOnWidth (i : Instr) (w : Width) (bits : BitVec 8) (s : State) : Prop :=
  ¬LegalWidth w bits → exec i s = .next (faulted .badLogicalWidth s)

/-- A request whose LogicalWidth is legal and whose operands are not all canonical takes NonCanonicalOperand (R305, R310 rows
9 and 10). -/
abbrev FaultsOnOperands (i : Instr) (w : Width) (bits : BitVec 8) (operandsOk : Bool) (s : State) : Prop :=
  LegalWidth w bits → operandsOk = false → exec i s = .next (faulted .nonCanonicalOperand s)

/-- The control word of a row of the opcode table with BITS in it, from the numbers of R81, R83 and R87:
`OP + 64 S + 128 W + 1024 BITS`. -/
def tableWord (op : Nat) (sg : Sign) (w : Width) (bits : BitVec 8) : ControlWord :=
  let sNumber := match sg with
    | .u => 0
    | .i => 1
  let wNumber := match w with
    | .w8 => 0
    | .w16 => 1
    | .w32 => 2
    | .w64 => 3
    | .w128 => 4
  BitVec.ofNat 32 (op + 64 * sNumber + 128 * wNumber + 1024 * bits.toNat)

/-- A legal control word: one that matches a row of the opcode map by its mask (R88). -/
def LegalWord (cw : ControlWord) : Prop :=
  (∃ op ∈ listedOps, op ∉ only128Ops ∧ ∃ sg w, cw &&& 0xFFFC03FF#32 = tableWord op sg w 0#8) ∨
    ∃ op ∈ only128Ops, ∃ sg, cw = tableWord op sg .w128 0#8

/-- A reserved control word: OP 0x0F or 0x13, with RSV and W legal (R90). -/
def ReservedWord (cw : ControlWord) : Prop :=
  reservedNumber cw = 0 ∧ widthNumber cw ≤ 4 ∧ (opNumber cw = 0x0F ∨ opNumber cw = 0x13)

/-- An illegal control word, by the list of R89. -/
def IllegalWord (cw : ControlWord) : Prop :=
  reservedNumber cw ≠ 0 ∨ 5 ≤ widthNumber cw ∨
    (opNumber cw ∉ listedOps ∧ opNumber cw ≠ 0x0F ∧ opNumber cw ≠ 0x13) ∨
    (opNumber cw ∈ only128Ops ∧ widthNumber cw ≠ 4) ∨ (opNumber cw ∈ only128Ops ∧ bitsNumber cw ≠ 0)

/-- A run has ended: the host has no action left and FAULT is 0x00 (R348). R348 names the last request and the last read only:
that a reset still to come keeps an unfaulted run from having ended, and that a run which faulted and was then reset can end,
is DESIGN CHOICE, unsafe (log entry 18). -/
abbrev RunEnded (s : State) : Prop := s.host = [] ∧ s.fault = 0x00#8

/-- The invariant of every state a run from reset reaches. -/
structure Inv (s : State) : Prop where
  /-- Codes 0x0A to 0xFF are never written (R300). -/
  faultCode : s.fault.toNat ≤ 9
  /-- A faulted block's latches hold no value (R312). -/
  faultedEmpty : s.fault ≠ 0x00#8 → s.res = none ∧ s.ovf = none
  /-- RES holds a value of a width of the block only (R32). -/
  resWidth : ∀ l, s.res = some l → l.width ∈ [8, 16, 32, 64, 128]
  /-- OVF holds a value only beside a result (R33, R85). -/
  ovfBesideRes : s.ovf ≠ none → s.res ≠ none
  /-- CFG holds its parameter values (R35). -/
  cfgFixed : s.cfg = Cfg.parameters

end Sys2Proof.Machine
end

