-- ==== Sys2Proof/WellFormed.lean ====
section
/-!
DEFINITION. When an instruction is well-formed: the checks of 60_exceptions.md R310 that depend on the control word alone
and that an Instr can still break (rows 7 and 8), and when the lanes of a request carry nothing above their operands.
-/

namespace Sys2Proof

/-- Row 7: an operation that takes BITS has a LogicalWidth in 1..N (R86, R303). -/
def Fields.widthOk (f : Fields) : Bool :=
  f.op.only128 || (decide (1 ≤ f.bits.toNat) && decide (f.bits.toNat ≤ f.w.bits))

/-- Row 8: BYTESWAP has a LogicalWidth of whole bytes (R304). -/
def Fields.bytesOk (f : Fields) : Bool :=
  f.op != .byteswap || decide (f.bits.toNat % 8 = 0)

/-- An instruction is well-formed when its control word passes checks 7 and 8; checks 1 to 6 no Instr can break. -/
def WellFormed (i : Instr) : Bool := (fieldsOf i).widthOk && (fieldsOf i).bytesOk

/-- The lanes of the request of a decoded instruction hold its operands and zeros (R84, log entry 5). -/
def Request.lanesOk (r : Request) (op : Op) (w : Width) : Bool :=
  decide (r.a.toNat < 2 ^ op.widthA w) && decide (r.b.toNat < 2 ^ op.widthB w)

end Sys2Proof
end

