-- ==== Sys2Proof/Certificates/Slice0/Obligations.lean ====
section
/-!
DEFINITION. The statements for the provers. Each is about every state and every operand of the forms it names; its docstring
cites the rule it formalises. `completed`, `completedWithFlag` and `faulted` (Safety.lean) name the one next state: every field
they do not set is unchanged. A row function such as `addwRow` gives all the rows of its operation (Decode.lean).
-/

open Sys2Proof Sys2Proof.Machine

/-! ## WRAP, NOT, AND, OR, XOR, SHL, SHR (40_wrap_bitwise_shift.md) -/

/-- R121: `wrap_<s><N>` (10 rows) masks to the low `bits` bits or sign-extends from bit `bits-1`, for any operand; the result is
canonical, congruent, the operand itself at bits = N, and a fixed point of WRAP. -/
def Obligations.WrapMasksOrSignExtends : Prop :=
  ∀ (sg : Sign) (w : Width) (bits : BitVec 8) (a : BitVec w.bits) (s : State), s.fault = 0x00#8 →
    (encode (wrapRow sg w bits a)).cw = tableWord 0x00 sg w bits ∧
    FaultsOnWidth (wrapRow sg w bits a) w bits s ∧
    (LegalWidth w bits → ∃ y : BitVec w.bits, exec (wrapRow sg w bits a) s = .next (completed y s) ∧
      (∀ k, k < w.bits → y.getLsbD k =
        if k < bits.toNat then a.getLsbD k else decide (sg = .i) && a.getLsbD (bits.toNat - 1)) ∧
      val sg y = wrapv sg bits.toNat (val sg a) ∧
      canonical sg bits.toNat y = true ∧
      (bits.toNat = w.bits → y = a) ∧
      exec (wrapRow sg w bits y) s = .next (completed y s))

/-- R122: `not_<s><N>` (10 rows) complements within the LogicalWidth. -/
def Obligations.NotComplementsWithinWidth : Prop :=
  ∀ (sg : Sign) (w : Width) (bits : BitVec 8) (a : BitVec w.bits) (s : State), s.fault = 0x00#8 →
    (encode (notRow sg w bits a)).cw = tableWord 0x01 sg w bits ∧
    FaultsOnWidth (notRow sg w bits a) w bits s ∧
    FaultsOnOperands (notRow sg w bits a) w bits (canonical sg bits.toNat a) s ∧
    (LegalWidth w bits → canonical sg bits.toNat a = true →
      ∃ y : BitVec w.bits, exec (notRow sg w bits a) s = .next (completed y s) ∧
        exec (wrapRow sg w bits (~~~a)) s = .next (completed y s) ∧
        (sg = .u → (y.toNat : Int) = 2 ^ bits.toNat - 1 - a.toNat) ∧
        (sg = .i → y.toInt = -a.toInt - 1) ∧
        (sg = .i → a.toInt = minInt .i bits.toNat → y.toInt = maxInt .i bits.toNat) ∧
        canonical sg bits.toNat y = true)

/-- R123: `and_<s><N>` (10 rows). -/
def Obligations.AndIsBitwiseConjunction : Prop :=
  ∀ (sg : Sign) (w : Width) (bits : BitVec 8) (a b : BitVec w.bits) (s : State), s.fault = 0x00#8 →
    (encode (andRow sg w bits a b)).cw = tableWord 0x02 sg w bits ∧
    FaultsOnWidth (andRow sg w bits a b) w bits s ∧
    FaultsOnOperands (andRow sg w bits a b) w bits (canonical sg bits.toNat a && canonical sg bits.toNat b) s ∧
    (LegalWidth w bits → canonical sg bits.toNat a = true → canonical sg bits.toNat b = true →
      exec (andRow sg w bits a b) s = .next (completed (a &&& b) s) ∧ canonical sg bits.toNat (a &&& b) = true ∧
        (a = b → a &&& b = a))

/-- R124: `or_<s><N>` (10 rows). -/
def Obligations.OrIsBitwiseDisjunction : Prop :=
  ∀ (sg : Sign) (w : Width) (bits : BitVec 8) (a b : BitVec w.bits) (s : State), s.fault = 0x00#8 →
    (encode (orRow sg w bits a b)).cw = tableWord 0x03 sg w bits ∧
    FaultsOnWidth (orRow sg w bits a b) w bits s ∧
    FaultsOnOperands (orRow sg w bits a b) w bits (canonical sg bits.toNat a && canonical sg bits.toNat b) s ∧
    (LegalWidth w bits → canonical sg bits.toNat a = true → canonical sg bits.toNat b = true →
      exec (orRow sg w bits a b) s = .next (completed (a ||| b) s) ∧ canonical sg bits.toNat (a ||| b) = true ∧
        (a = b → a ||| b = a))

/-- R125: `xor_<s><N>` (10 rows). -/
def Obligations.XorIsBitwiseExclusiveOr : Prop :=
  ∀ (sg : Sign) (w : Width) (bits : BitVec 8) (a b : BitVec w.bits) (s : State), s.fault = 0x00#8 →
    (encode (xorRow sg w bits a b)).cw = tableWord 0x04 sg w bits ∧
    FaultsOnWidth (xorRow sg w bits a b) w bits s ∧
    FaultsOnOperands (xorRow sg w bits a b) w bits (canonical sg bits.toNat a && canonical sg bits.toNat b) s ∧
    (LegalWidth w bits → canonical sg bits.toNat a = true → canonical sg bits.toNat b = true →
      exec (xorRow sg w bits a b) s = .next (completed (a ^^^ b) s) ∧ canonical sg bits.toNat (a ^^^ b) = true ∧
        (a = b → a ^^^ b = 0#w.bits))

/-- R126: `shl_<s><N>` (10 rows) multiplies by 2^amt and reduces to `bits`; an amount of N or more faults. -/
def Obligations.ShlReducesTheShiftedValue : Prop :=
  ∀ (sg : Sign) (w : Width) (bits : BitVec 8) (a : BitVec w.bits) (b : BitVec 8) (s : State), s.fault = 0x00#8 →
    (encode (shlRow sg w bits a b)).cw = tableWord 0x05 sg w bits ∧
    FaultsOnWidth (shlRow sg w bits a b) w bits s ∧
    FaultsOnOperands (shlRow sg w bits a b) w bits (canonical sg bits.toNat a) s ∧
    (LegalWidth w bits → canonical sg bits.toNat a = true → w.bits ≤ b.toNat →
      exec (shlRow sg w bits a b) s = .next (faulted .shiftAmountOutOfRange s)) ∧
    (LegalWidth w bits → canonical sg bits.toNat a = true → b.toNat < w.bits →
      ∃ y : BitVec w.bits, exec (shlRow sg w bits a b) s = .next (completed y s) ∧
        y = enc w.bits (wrapv sg bits.toNat (val sg a * 2 ^ b.toNat)) ∧
        exec (wrapRow sg w bits (a <<< b.toNat)) s = .next (completed y s) ∧
        canonical sg bits.toNat y = true ∧
        (b.toNat = 0 → y = a) ∧
        (bits.toNat ≤ b.toNat → y = 0#w.bits))

/-- R127: `shr_<s><N>` (10 rows) divides by 2^amt rounding down: logical for s = u, arithmetic for s = i. -/
def Obligations.ShrFloorsTheQuotient : Prop :=
  ∀ (sg : Sign) (w : Width) (bits : BitVec 8) (a : BitVec w.bits) (b : BitVec 8) (s : State), s.fault = 0x00#8 →
    (encode (shrRow sg w bits a b)).cw = tableWord 0x06 sg w bits ∧
    FaultsOnWidth (shrRow sg w bits a b) w bits s ∧
    FaultsOnOperands (shrRow sg w bits a b) w bits (canonical sg bits.toNat a) s ∧
    (LegalWidth w bits → canonical sg bits.toNat a = true → w.bits ≤ b.toNat →
      exec (shrRow sg w bits a b) s = .next (faulted .shiftAmountOutOfRange s)) ∧
    (LegalWidth w bits → canonical sg bits.toNat a = true → b.toNat < w.bits →
      ∃ y : BitVec w.bits, exec (shrRow sg w bits a b) s = .next (completed y s) ∧
        y = enc w.bits (Int.fdiv (val sg a) (2 ^ b.toNat)) ∧
        val sg y = Int.fdiv (val sg a) (2 ^ b.toNat) ∧
        canonical sg bits.toNat y = true ∧
        (b.toNat = 0 → y = a) ∧
        (bits.toNat ≤ b.toNat → y = if sg = .i ∧ a.toInt < 0 then BitVec.allOnes w.bits else 0#w.bits))

/-! ## ADDW, SUBW, MULW (41_wrapping_arith.md) -/

/-- R151: `addw_<s><N>` (10 rows). -/
def Obligations.AddwWrapsTheSum : Prop :=
  ∀ (sg : Sign) (w : Width) (bits : BitVec 8) (a b : BitVec w.bits) (s : State), s.fault = 0x00#8 →
    (encode (addwRow sg w bits a b)).cw = tableWord 0x08 sg w bits ∧
    FaultsOnWidth (addwRow sg w bits a b) w bits s ∧
    FaultsOnOperands (addwRow sg w bits a b) w bits (canonical sg bits.toNat a && canonical sg bits.toNat b) s ∧
    (LegalWidth w bits → canonical sg bits.toNat a = true → canonical sg bits.toNat b = true →
      ∃ y : BitVec w.bits, exec (addwRow sg w bits a b) s = .next (completed y s) ∧
        y = enc w.bits (wrapv sg bits.toNat (val sg a + val sg b)) ∧
        canonical sg bits.toNat y = true ∧
        (2 ^ bits.toNat : Int) ∣ val sg y - (val sg a + val sg b) ∧
        (val sg a = maxInt sg bits.toNat → val sg b = 1 → val sg y = minInt sg bits.toNat) ∧
        (a = b → (2 ^ bits.toNat : Int) ∣ val sg y - 2 * val sg a))

/-- R152: `subw_<s><N>` (10 rows). -/
def Obligations.SubwWrapsTheDifference : Prop :=
  ∀ (sg : Sign) (w : Width) (bits : BitVec 8) (a b : BitVec w.bits) (s : State), s.fault = 0x00#8 →
    (encode (subwRow sg w bits a b)).cw = tableWord 0x09 sg w bits ∧
    FaultsOnWidth (subwRow sg w bits a b) w bits s ∧
    FaultsOnOperands (subwRow sg w bits a b) w bits (canonical sg bits.toNat a && canonical sg bits.toNat b) s ∧
    (LegalWidth w bits → canonical sg bits.toNat a = true → canonical sg bits.toNat b = true →
      ∃ y : BitVec w.bits, exec (subwRow sg w bits a b) s = .next (completed y s) ∧
        y = enc w.bits (wrapv sg bits.toNat (val sg a - val sg b)) ∧
        canonical sg bits.toNat y = true ∧
        (2 ^ bits.toNat : Int) ∣ val sg y - (val sg a - val sg b) ∧
        (val sg a = 0 → val sg b = 1 → val sg y = match sg with | .u => maxInt .u bits.toNat | .i => -1) ∧
        (sg = .i → val sg a = minInt .i bits.toNat → val sg b = 1 → val sg y = maxInt .i bits.toNat) ∧
        (sg = .i → val sg a = 0 → val sg b = minInt .i bits.toNat → val sg y = minInt .i bits.toNat) ∧
        (a = b → y = 0#w.bits))

/-- R153: `mulw_<s><N>` (10 rows); the low `bits` bits of the product are the same for both signednesses. -/
def Obligations.MulwWrapsTheProduct : Prop :=
  ∀ (sg : Sign) (w : Width) (bits : BitVec 8) (a b : BitVec w.bits) (s : State), s.fault = 0x00#8 →
    (encode (mulwRow sg w bits a b)).cw = tableWord 0x0A sg w bits ∧
    FaultsOnWidth (mulwRow sg w bits a b) w bits s ∧
    FaultsOnOperands (mulwRow sg w bits a b) w bits (canonical sg bits.toNat a && canonical sg bits.toNat b) s ∧
    (LegalWidth w bits → canonical sg bits.toNat a = true → canonical sg bits.toNat b = true →
      ∃ y : BitVec w.bits, exec (mulwRow sg w bits a b) s = .next (completed y s) ∧
        y = enc w.bits (wrapv sg bits.toNat (val sg a * val sg b)) ∧
        canonical sg bits.toNat y = true ∧
        lowBits bits.toNat y = lowBits bits.toNat a * lowBits bits.toNat b ∧
        (val sg b = 0 → y = 0#w.bits) ∧
        (val sg b = 1 → y = a) ∧
        (sg = .i → val sg a = minInt .i bits.toNat → val sg b = -1 → val sg y = minInt .i bits.toNat))

/-! ## ADDO, SUBO, MULO (42_overflow_checked.md) -/

/-- R172: `addo_<s><N>` (10 rows): the wrapped sum, and the flag that says whether the exact sum is out of range. -/
def Obligations.AddoFlagsTheSum : Prop :=
  ∀ (sg : Sign) (w : Width) (bits : BitVec 8) (a b : BitVec w.bits) (s : State), s.fault = 0x00#8 →
    (encode (addoRow sg w bits a b)).cw = tableWord 0x0C sg w bits ∧
    FaultsOnWidth (addoRow sg w bits a b) w bits s ∧
    FaultsOnOperands (addoRow sg w bits a b) w bits (canonical sg bits.toNat a && canonical sg bits.toNat b) s ∧
    (LegalWidth w bits → canonical sg bits.toNat a = true → canonical sg bits.toNat b = true →
      ∃ (y : BitVec w.bits) (f : Bool), exec (addoRow sg w bits a b) s = .next (completedWithFlag y f s) ∧
        y = enc w.bits (wrapv sg bits.toNat (val sg a + val sg b)) ∧
        exec (addwRow sg w bits a b) s = .next (completed y s) ∧
        (f = true ↔ val sg a + val sg b < minInt sg bits.toNat ∨ maxInt sg bits.toNat < val sg a + val sg b) ∧
        (val sg a = maxInt sg bits.toNat - 1 → val sg b = 1 → f = false ∧ val sg y = maxInt sg bits.toNat) ∧
        (val sg a = maxInt sg bits.toNat → val sg b = 1 → f = true) ∧
        (sg = .u → (f = true ↔ 2 ^ bits.toNat ≤ a.toNat + b.toNat)) ∧
        (sg = .i → f = true → (a.toInt < 0 ↔ b.toInt < 0)))

/-- R173: `subo_<s><N>` (10 rows). -/
def Obligations.SuboFlagsTheDifference : Prop :=
  ∀ (sg : Sign) (w : Width) (bits : BitVec 8) (a b : BitVec w.bits) (s : State), s.fault = 0x00#8 →
    (encode (suboRow sg w bits a b)).cw = tableWord 0x0D sg w bits ∧
    FaultsOnWidth (suboRow sg w bits a b) w bits s ∧
    FaultsOnOperands (suboRow sg w bits a b) w bits (canonical sg bits.toNat a && canonical sg bits.toNat b) s ∧
    (LegalWidth w bits → canonical sg bits.toNat a = true → canonical sg bits.toNat b = true →
      ∃ (y : BitVec w.bits) (f : Bool), exec (suboRow sg w bits a b) s = .next (completedWithFlag y f s) ∧
        y = enc w.bits (wrapv sg bits.toNat (val sg a - val sg b)) ∧
        exec (subwRow sg w bits a b) s = .next (completed y s) ∧
        (f = true ↔ val sg a - val sg b < minInt sg bits.toNat ∨ maxInt sg bits.toNat < val sg a - val sg b) ∧
        (sg = .u → (f = true ↔ a.toNat < b.toNat)) ∧
        (sg = .i → a.toInt = 0 → b.toInt = minInt .i bits.toNat → f = true) ∧
        (sg = .i → f = true → (a.toInt < 0 ↔ 0 ≤ b.toInt)) ∧
        (a = b → y = 0#w.bits ∧ f = false))

/-- R174: `mulo_<s><N>` (10 rows). -/
def Obligations.MuloFlagsTheProduct : Prop :=
  ∀ (sg : Sign) (w : Width) (bits : BitVec 8) (a b : BitVec w.bits) (s : State), s.fault = 0x00#8 →
    (encode (muloRow sg w bits a b)).cw = tableWord 0x0E sg w bits ∧
    FaultsOnWidth (muloRow sg w bits a b) w bits s ∧
    FaultsOnOperands (muloRow sg w bits a b) w bits (canonical sg bits.toNat a && canonical sg bits.toNat b) s ∧
    (LegalWidth w bits → canonical sg bits.toNat a = true → canonical sg bits.toNat b = true →
      ∃ (y : BitVec w.bits) (f : Bool), exec (muloRow sg w bits a b) s = .next (completedWithFlag y f s) ∧
        y = enc w.bits (wrapv sg bits.toNat (val sg a * val sg b)) ∧
        exec (mulwRow sg w bits a b) s = .next (completed y s) ∧
        (f = true ↔ val sg a * val sg b < minInt sg bits.toNat ∨ maxInt sg bits.toNat < val sg a * val sg b) ∧
        (val sg b = 0 → f = false) ∧
        (sg = .i → a.toInt = minInt .i bits.toNat → b.toInt = -1 → f = true ∧ y.toInt = minInt .i bits.toNat) ∧
        (sg = .i → a.toInt = minInt .i bits.toNat → b.toInt = 1 → f = false))

/-! ## ADDS, SUBS, MULS (43_saturating.md) -/

/-- R192: `adds_<s><N>` (10 rows): the exact sum clamped to the range. -/
def Obligations.AddsClampsTheSum : Prop :=
  ∀ (sg : Sign) (w : Width) (bits : BitVec 8) (a b : BitVec w.bits) (s : State), s.fault = 0x00#8 →
    (encode (addsRow sg w bits a b)).cw = tableWord 0x10 sg w bits ∧
    FaultsOnWidth (addsRow sg w bits a b) w bits s ∧
    FaultsOnOperands (addsRow sg w bits a b) w bits (canonical sg bits.toNat a && canonical sg bits.toNat b) s ∧
    (LegalWidth w bits → canonical sg bits.toNat a = true → canonical sg bits.toNat b = true →
      ∃ y : BitVec w.bits, exec (addsRow sg w bits a b) s = .next (completed y s) ∧
        y = enc w.bits (clamp sg bits.toNat (val sg a + val sg b)) ∧
        canonical sg bits.toNat y = true ∧
        (minInt sg bits.toNat ≤ val sg a + val sg b → val sg a + val sg b ≤ maxInt sg bits.toNat →
          val sg y = val sg a + val sg b) ∧
        (val sg a = maxInt sg bits.toNat → val sg b = 1 → val sg y = maxInt sg bits.toNat) ∧
        (sg = .i → val sg a = minInt .i bits.toNat → val sg b = -1 → val sg y = minInt .i bits.toNat) ∧
        (sg = .i → val sg a = maxInt .i bits.toNat → val sg b = minInt .i bits.toNat → val sg y = -1))

/-- R193: `subs_<s><N>` (10 rows). -/
def Obligations.SubsClampsTheDifference : Prop :=
  ∀ (sg : Sign) (w : Width) (bits : BitVec 8) (a b : BitVec w.bits) (s : State), s.fault = 0x00#8 →
    (encode (subsRow sg w bits a b)).cw = tableWord 0x11 sg w bits ∧
    FaultsOnWidth (subsRow sg w bits a b) w bits s ∧
    FaultsOnOperands (subsRow sg w bits a b) w bits (canonical sg bits.toNat a && canonical sg bits.toNat b) s ∧
    (LegalWidth w bits → canonical sg bits.toNat a = true → canonical sg bits.toNat b = true →
      ∃ y : BitVec w.bits, exec (subsRow sg w bits a b) s = .next (completed y s) ∧
        y = enc w.bits (clamp sg bits.toNat (val sg a - val sg b)) ∧
        canonical sg bits.toNat y = true ∧
        (minInt sg bits.toNat ≤ val sg a - val sg b → val sg a - val sg b ≤ maxInt sg bits.toNat →
          val sg y = val sg a - val sg b) ∧
        (sg = .u → a.toNat < b.toNat → y = 0#w.bits) ∧
        (sg = .i → val sg a = 0 → val sg b = minInt .i bits.toNat → val sg y = maxInt .i bits.toNat) ∧
        (a = b → y = 0#w.bits))

/-- R194: `muls_<s><N>` (10 rows). -/
def Obligations.MulsClampsTheProduct : Prop :=
  ∀ (sg : Sign) (w : Width) (bits : BitVec 8) (a b : BitVec w.bits) (s : State), s.fault = 0x00#8 →
    (encode (mulsRow sg w bits a b)).cw = tableWord 0x12 sg w bits ∧
    FaultsOnWidth (mulsRow sg w bits a b) w bits s ∧
    FaultsOnOperands (mulsRow sg w bits a b) w bits (canonical sg bits.toNat a && canonical sg bits.toNat b) s ∧
    (LegalWidth w bits → canonical sg bits.toNat a = true → canonical sg bits.toNat b = true →
      ∃ y : BitVec w.bits, exec (mulsRow sg w bits a b) s = .next (completed y s) ∧
        y = enc w.bits (clamp sg bits.toNat (val sg a * val sg b)) ∧
        canonical sg bits.toNat y = true ∧
        (minInt sg bits.toNat ≤ val sg a * val sg b → val sg a * val sg b ≤ maxInt sg bits.toNat →
          val sg y = val sg a * val sg b) ∧
        (sg = .i → val sg a = minInt .i bits.toNat → val sg b = -1 → val sg y = maxInt .i bits.toNat) ∧
        (val sg b = 0 → y = 0#w.bits))

/-! ## DIV_TRUNC, REM, DIV_FLOOR, MOD (44_division.md) -/

/-- R211: `div_trunc_<s><N>` (10 rows): the quotient rounded toward zero; a zero divisor and minInt / -1 fault, in this order,
after canonicity. -/
def Obligations.DivTruncRoundsTowardZero : Prop :=
  ∀ (sg : Sign) (w : Width) (bits : BitVec 8) (a b : BitVec w.bits) (s : State), s.fault = 0x00#8 →
    (encode (divTruncRow sg w bits a b)).cw = tableWord 0x14 sg w bits ∧
    FaultsOnWidth (divTruncRow sg w bits a b) w bits s ∧
    FaultsOnOperands (divTruncRow sg w bits a b) w bits (canonical sg bits.toNat a && canonical sg bits.toNat b) s ∧
    (LegalWidth w bits → canonical sg bits.toNat a = true → canonical sg bits.toNat b = true →
      (val sg b = 0 → exec (divTruncRow sg w bits a b) s = .next (faulted .divideByZero s)) ∧
      (sg = .i → val sg a = minInt .i bits.toNat → val sg b = -1 →
        exec (divTruncRow sg w bits a b) s = .next (faulted .divideOverflow s)) ∧
      (val sg b ≠ 0 → ¬(sg = .i ∧ val sg a = minInt .i bits.toNat ∧ val sg b = -1) →
        ∃ y : BitVec w.bits, exec (divTruncRow sg w bits a b) s = .next (completed y s) ∧
          y = enc w.bits (Int.tdiv (val sg a) (val sg b)) ∧
          val sg y = Int.tdiv (val sg a) (val sg b) ∧
          canonical sg bits.toNat y = true ∧
          (val sg a = 0 → y = 0#w.bits) ∧
          (val sg b = 1 → y = a) ∧
          (a = b → val sg y = 1) ∧
          ((val sg a).natAbs < (val sg b).natAbs → y = 0#w.bits)))

/-- R212: `rem_<s><N>` (10 rows): the remainder of truncating division, with the sign of the dividend. -/
def Obligations.RemHasTheSignOfTheDividend : Prop :=
  ∀ (sg : Sign) (w : Width) (bits : BitVec 8) (a b : BitVec w.bits) (s : State), s.fault = 0x00#8 →
    (encode (remRow sg w bits a b)).cw = tableWord 0x15 sg w bits ∧
    FaultsOnWidth (remRow sg w bits a b) w bits s ∧
    FaultsOnOperands (remRow sg w bits a b) w bits (canonical sg bits.toNat a && canonical sg bits.toNat b) s ∧
    (LegalWidth w bits → canonical sg bits.toNat a = true → canonical sg bits.toNat b = true →
      (val sg b = 0 → exec (remRow sg w bits a b) s = .next (faulted .divideByZero s)) ∧
      (sg = .i → val sg a = minInt .i bits.toNat → val sg b = -1 →
        exec (remRow sg w bits a b) s = .next (faulted .divideOverflow s)) ∧
      (val sg b ≠ 0 → ¬(sg = .i ∧ val sg a = minInt .i bits.toNat ∧ val sg b = -1) →
        ∃ y : BitVec w.bits, exec (remRow sg w bits a b) s = .next (completed y s) ∧
          y = enc w.bits (val sg a - val sg b * Int.tdiv (val sg a) (val sg b)) ∧
          val sg y = val sg a - val sg b * Int.tdiv (val sg a) (val sg b) ∧
          (val sg y).natAbs < (val sg b).natAbs ∧
          (val sg y = 0 ∨ (val sg y < 0 ↔ val sg a < 0)) ∧
          (a = b → y = 0#w.bits)))

/-- R213: `div_floor_<s><N>` (10 rows): the quotient rounded toward negative infinity. -/
def Obligations.DivFloorRoundsDown : Prop :=
  ∀ (sg : Sign) (w : Width) (bits : BitVec 8) (a b : BitVec w.bits) (s : State), s.fault = 0x00#8 →
    (encode (divFloorRow sg w bits a b)).cw = tableWord 0x16 sg w bits ∧
    FaultsOnWidth (divFloorRow sg w bits a b) w bits s ∧
    FaultsOnOperands (divFloorRow sg w bits a b) w bits (canonical sg bits.toNat a && canonical sg bits.toNat b) s ∧
    (LegalWidth w bits → canonical sg bits.toNat a = true → canonical sg bits.toNat b = true →
      (val sg b = 0 → exec (divFloorRow sg w bits a b) s = .next (faulted .divideByZero s)) ∧
      (sg = .i → val sg a = minInt .i bits.toNat → val sg b = -1 →
        exec (divFloorRow sg w bits a b) s = .next (faulted .divideOverflow s)) ∧
      (val sg b ≠ 0 → ¬(sg = .i ∧ val sg a = minInt .i bits.toNat ∧ val sg b = -1) →
        ∃ y q : BitVec w.bits, exec (divFloorRow sg w bits a b) s = .next (completed y s) ∧
          exec (divTruncRow sg w bits a b) s = .next (completed q s) ∧
          y = enc w.bits (Int.fdiv (val sg a) (val sg b)) ∧
          val sg y = Int.fdiv (val sg a) (val sg b) ∧
          (sg = .u → y = q) ∧
          (y ≠ q ↔ Int.tmod (val sg a) (val sg b) ≠ 0 ∧ ¬(val sg a < 0 ↔ val sg b < 0))))

/-- R214: `mod_<s><N>` (10 rows): the modulo of floor division, with the sign of the divisor. -/
def Obligations.ModHasTheSignOfTheDivisor : Prop :=
  ∀ (sg : Sign) (w : Width) (bits : BitVec 8) (a b : BitVec w.bits) (s : State), s.fault = 0x00#8 →
    (encode (modRow sg w bits a b)).cw = tableWord 0x17 sg w bits ∧
    FaultsOnWidth (modRow sg w bits a b) w bits s ∧
    FaultsOnOperands (modRow sg w bits a b) w bits (canonical sg bits.toNat a && canonical sg bits.toNat b) s ∧
    (LegalWidth w bits → canonical sg bits.toNat a = true → canonical sg bits.toNat b = true →
      (val sg b = 0 → exec (modRow sg w bits a b) s = .next (faulted .divideByZero s)) ∧
      (sg = .i → val sg a = minInt .i bits.toNat → val sg b = -1 →
        exec (modRow sg w bits a b) s = .next (faulted .divideOverflow s)) ∧
      (val sg b ≠ 0 → ¬(sg = .i ∧ val sg a = minInt .i bits.toNat ∧ val sg b = -1) →
        ∃ y r : BitVec w.bits, exec (modRow sg w bits a b) s = .next (completed y s) ∧
          exec (remRow sg w bits a b) s = .next (completed r s) ∧
          y = enc w.bits (val sg a - val sg b * Int.fdiv (val sg a) (val sg b)) ∧
          val sg y = val sg a - val sg b * Int.fdiv (val sg a) (val sg b) ∧
          (sg = .u → y = r) ∧
          (val sg y = 0 ∨ (val sg y < 0 ↔ val sg b < 0)) ∧
          (val sg y).natAbs < (val sg b).natAbs))

/-- R216: quotient and remainder of the same operands put the dividend together again, in both roundings. -/
def Obligations.QuotientAndRemainderRecompose : Prop :=
  ∀ (sg : Sign) (w : Width) (bits : BitVec 8) (a b : BitVec w.bits) (s : State), s.fault = 0x00#8 →
    LegalWidth w bits → canonical sg bits.toNat a = true → canonical sg bits.toNat b = true →
    val sg b ≠ 0 → ¬(sg = .i ∧ val sg a = minInt .i bits.toNat ∧ val sg b = -1) →
    ∃ q r qf rf : BitVec w.bits,
      exec (divTruncRow sg w bits a b) s = .next (completed q s) ∧
      exec (remRow sg w bits a b) s = .next (completed r s) ∧
      exec (divFloorRow sg w bits a b) s = .next (completed qf s) ∧
      exec (modRow sg w bits a b) s = .next (completed rf s) ∧
      val sg a = val sg q * val sg b + val sg r ∧
      val sg a = val sg qf * val sg b + val sg rf ∧
      |val sg r| < |val sg b| ∧ |val sg rf| < |val sg b| ∧
      (val sg r = 0 ∨ (val sg r < 0 ↔ val sg a < 0)) ∧
      (val sg rf = 0 ∨ (val sg rf < 0 ↔ val sg b < 0))

/-- R215: the floor variants are the truncating ones with the sign correction. -/
def Obligations.FloorIsCorrectedTruncation : Prop :=
  ∀ a b : Int, b ≠ 0 →
    let q := tdiv a b
    let r := trem a b
    fdiv a b = (if r ≠ 0 ∧ ¬(r < 0 ↔ b < 0) then q - 1 else q) ∧
    fmod a b = (if r ≠ 0 ∧ ¬(r < 0 ↔ b < 0) then r + b else r) ∧
    fdiv a b = correctedDiv a b ∧ fmod a b = correctedMod a b

/-! ## CLZ, CTZ, POPCOUNT, BYTESWAP, BITREVERSE (46_bitmanip.md) -/

/-- R272: `clz_<s><N>` (10 rows) counts the zeros above the highest 1 bit within the LogicalWidth, `bits` where there is none. -/
def Obligations.ClzCountsWithinWidth : Prop :=
  ∀ (sg : Sign) (w : Width) (bits : BitVec 8) (a : BitVec w.bits) (s : State), s.fault = 0x00#8 →
    (encode (clzRow sg w bits a)).cw = tableWord 0x18 sg w bits ∧
    FaultsOnWidth (clzRow sg w bits a) w bits s ∧
    FaultsOnOperands (clzRow sg w bits a) w bits (canonical sg bits.toNat a) s ∧
    (LegalWidth w bits → canonical sg bits.toNat a = true →
      ∃ c : BitVec 8, exec (clzRow sg w bits a) s = .next (completed c s) ∧
        (a = 0#w.bits → c.toNat = bits.toNat) ∧
        (∀ k, k < bits.toNat → a.getLsbD k = true → (∀ j, k < j → j < bits.toNat → a.getLsbD j = false) →
          c.toNat = bits.toNat - 1 - k) ∧
        (a ≠ 0#w.bits → c.toNat = leadingZeros (logicalPattern bits.toNat a) - (w.bits - bits.toNat)) ∧
        (sg = .i → a.toInt < 0 → c.toNat = 0) ∧
        c.toNat ≤ bits.toNat)

/-- R273: `ctz_<s><N>` (10 rows) counts the zeros below the lowest 1 bit within the LogicalWidth, `bits` where there is none. -/
def Obligations.CtzCountsWithinWidth : Prop :=
  ∀ (sg : Sign) (w : Width) (bits : BitVec 8) (a : BitVec w.bits) (s : State), s.fault = 0x00#8 →
    (encode (ctzRow sg w bits a)).cw = tableWord 0x19 sg w bits ∧
    FaultsOnWidth (ctzRow sg w bits a) w bits s ∧
    FaultsOnOperands (ctzRow sg w bits a) w bits (canonical sg bits.toNat a) s ∧
    (LegalWidth w bits → canonical sg bits.toNat a = true →
      ∃ c : BitVec 8, exec (ctzRow sg w bits a) s = .next (completed c s) ∧
        (a = 0#w.bits → c.toNat = bits.toNat) ∧
        (∀ k, k < bits.toNat → a.getLsbD k = true → (∀ j, j < k → a.getLsbD j = false) → c.toNat = k) ∧
        (sg = .i → a.toInt = minInt .i bits.toNat → c.toNat = bits.toNat - 1) ∧
        c.toNat ≤ bits.toNat)

/-- R274: `popcount_<s><N>` (10 rows) counts the 1 bits within the LogicalWidth; sign copies above it are not counted. -/
def Obligations.PopcountCountsWithinWidth : Prop :=
  ∀ (sg : Sign) (w : Width) (bits : BitVec 8) (a : BitVec w.bits) (s : State), s.fault = 0x00#8 →
    (encode (popcountRow sg w bits a)).cw = tableWord 0x1A sg w bits ∧
    FaultsOnWidth (popcountRow sg w bits a) w bits s ∧
    FaultsOnOperands (popcountRow sg w bits a) w bits (canonical sg bits.toNat a) s ∧
    (LegalWidth w bits → canonical sg bits.toNat a = true →
      ∃ c : BitVec 8, exec (popcountRow sg w bits a) s = .next (completed c s) ∧
        c.toNat = ((List.range bits.toNat).filter fun k => a.getLsbD k).length ∧
        (a = 0#w.bits → c.toNat = 0) ∧
        (sg = .i → a.toInt = -1 → c.toNat = bits.toNat) ∧
        c.toNat ≤ bits.toNat)

/-- R275: `byteswap_<s><N>` (10 rows) reverses the bytes of the LogicalWidth, which must be whole bytes; the result is
extended from its new top bit; twice gives the operand back. -/
def Obligations.ByteswapReversesBytes : Prop :=
  ∀ (sg : Sign) (w : Width) (bits : BitVec 8) (a : BitVec w.bits) (s : State), s.fault = 0x00#8 →
    (encode (byteswapRow sg w bits a)).cw = tableWord 0x1B sg w bits ∧
    FaultsOnWidth (byteswapRow sg w bits a) w bits s ∧
    (LegalWidth w bits → bits.toNat % 8 ≠ 0 → exec (byteswapRow sg w bits a) s = .next (faulted .byteSwapWidth s)) ∧
    (LegalWidth w bits → bits.toNat % 8 = 0 → canonical sg bits.toNat a = false →
      exec (byteswapRow sg w bits a) s = .next (faulted .nonCanonicalOperand s)) ∧
    (LegalWidth w bits → bits.toNat % 8 = 0 → canonical sg bits.toNat a = true →
      ∃ y : BitVec w.bits, exec (byteswapRow sg w bits a) s = .next (completed y s) ∧
        (∀ j t, j < bits.toNat / 8 → t < 8 → y.getLsbD (8 * j + t) = a.getLsbD (8 * (bits.toNat / 8 - 1 - j) + t)) ∧
        (∀ k, bits.toNat ≤ k → k < w.bits → y.getLsbD k = (decide (sg = .i) && y.getLsbD (bits.toNat - 1))) ∧
        canonical sg bits.toNat y = true ∧
        (bits.toNat = 8 → y = a) ∧
        exec (byteswapRow sg w bits y) s = .next (completed a s))

/-- R276: `bitreverse_<s><N>` (10 rows) reverses the bits of the LogicalWidth; the result is extended from its new top bit. -/
def Obligations.BitreverseReversesBits : Prop :=
  ∀ (sg : Sign) (w : Width) (bits : BitVec 8) (a : BitVec w.bits) (s : State), s.fault = 0x00#8 →
    (encode (bitreverseRow sg w bits a)).cw = tableWord 0x1C sg w bits ∧
    FaultsOnWidth (bitreverseRow sg w bits a) w bits s ∧
    FaultsOnOperands (bitreverseRow sg w bits a) w bits (canonical sg bits.toNat a) s ∧
    (LegalWidth w bits → canonical sg bits.toNat a = true →
      ∃ y : BitVec w.bits, exec (bitreverseRow sg w bits a) s = .next (completed y s) ∧
        (∀ j, j < bits.toNat → y.getLsbD j = a.getLsbD (bits.toNat - 1 - j)) ∧
        (∀ k, bits.toNat ≤ k → k < w.bits → y.getLsbD k = (decide (sg = .i) && y.getLsbD (bits.toNat - 1))) ∧
        canonical sg bits.toNat y = true ∧
        (bits.toNat = 1 → y = a) ∧
        (a = 0#w.bits → y = 0#w.bits) ∧
        ((∀ j, j < bits.toNat → a.getLsbD j = true) → y = a))

/-- R277: byte swap and bit reversal of a canonical value, applied to their own result, give the value back. -/
def Obligations.SwapAndReverseAreInvolutions : Prop :=
  ∀ (sg : Sign) (w : Width) (bits : BitVec 8) (x : BitVec w.bits) (s : State), s.fault = 0x00#8 →
    LegalWidth w bits → canonical sg bits.toNat x = true →
    (bits.toNat % 8 = 0 → ∃ y : BitVec w.bits,
      exec (byteswapRow sg w bits x) s = .next (completed y s) ∧
      exec (byteswapRow sg w bits y) (completed y s) = .next (completed x s)) ∧
    ∃ y : BitVec w.bits,
      exec (bitreverseRow sg w bits x) s = .next (completed y s) ∧
      exec (bitreverseRow sg w bits y) (completed y s) = .next (completed x s)

/-- R278: the recursive construction from half-width units gives the results of the five operations. -/
def Obligations.RecursiveUnitsGiveTheResults : Prop :=
  ∀ (sg : Sign) (w : Width) (bits : BitVec 8) (a : BitVec w.bits) (s : State), s.fault = 0x00#8 →
    LegalWidth w bits → canonical sg bits.toNat a = true →
    exec (clzRow sg w bits a) s = .next (completed (BitVec.ofNat 8 (recursiveClz w bits.toNat a)) s) ∧
    exec (ctzRow sg w bits a) s = .next (completed (BitVec.ofNat 8 (recursiveCtz w bits.toNat a)) s) ∧
    exec (popcountRow sg w bits a) s = .next (completed (BitVec.ofNat 8 (recursivePopcount w bits.toNat a)) s) ∧
    (bits.toNat % 8 = 0 →
      exec (byteswapRow sg w bits a) s = .next (completed (recursiveByteswap sg w bits.toNat a) s)) ∧
    exec (bitreverseRow sg w bits a) s = .next (completed (recursiveBitreverse sg w bits.toNat a) s)

/-! ## MAKE, HI, LO, CMP and the composition from halves (45_int128.md) -/

/-- R241: `make_u128` and `make_i128` put the first half above the second and never fault on operand values; the result may be
non-canonical at a smaller LogicalWidth, where NOT refuses it and WRAP accepts it. Another W or BITS is no MAKE. -/
def Obligations.MakeJoinsTheHalves : Prop :=
  ∀ (sg : Sign) (a b : BitVec 64) (s : State), s.fault = 0x00#8 →
    (encode (makeRow sg a b)).cw = tableWord 0x20 sg .w128 0#8 ∧
    ∃ y : BitVec 128, exec (makeRow sg a b) s = .next (completed y s) ∧
      y = a ++ b ∧
      val sg y = val sg a * 2 ^ 64 + (b.toNat : Int) ∧
      exec (hiRow sg y) s = .next (completed a s) ∧ exec (loRow sg y) s = .next (completed b s) ∧
      (∀ bits : BitVec 8, LegalWidth .w128 bits → canonical sg bits.toNat y = false →
        exec (notRow sg .w128 bits y) s = .next (faulted .nonCanonicalOperand s) ∧
        ∃ z : BitVec 128, exec (wrapRow sg .w128 bits y) s = .next (completed z s) ∧ canonical sg bits.toNat z = true) ∧
      ∀ r : Request, opNumber r.cw = 0x20 → widthNumber r.cw ≠ 4 ∨ bitsNumber r.cw ≠ 0 → decode r = .error .illegalEncoding

/-- R242, R243: `hi_u128`, `hi_i128`, `lo_u128` and `lo_i128` give the halves; another W or BITS is no HI or LO. -/
def Obligations.HiAndLoGiveTheHalves : Prop :=
  ∀ (sg : Sign) (a : BitVec 128) (s : State), s.fault = 0x00#8 →
    (encode (hiRow sg a)).cw = tableWord 0x21 sg .w128 0#8 ∧
    (encode (loRow sg a)).cw = tableWord 0x22 sg .w128 0#8 ∧
    ∃ h l : BitVec 64, exec (hiRow sg a) s = .next (completed h s) ∧ exec (loRow sg a) s = .next (completed l s) ∧
      (∀ k, k < 64 → h.getLsbD k = a.getLsbD (64 + k)) ∧ (∀ k, k < 64 → l.getLsbD k = a.getLsbD k) ∧
      exec (makeRow sg h l) s = .next (completed a s) ∧
      ∀ r : Request, opNumber r.cw = 0x21 ∨ opNumber r.cw = 0x22 → widthNumber r.cw ≠ 4 ∨ bitsNumber r.cw ≠ 0 →
        decode r = .error .illegalEncoding

/-- R244: `cmp_u128` and `cmp_i128` compare as values of the signedness; the lexicographic compare of the halves agrees.
Another W or BITS is no CMP. -/
def Obligations.CmpComparesThreeWay : Prop :=
  ∀ (sg : Sign) (a b : BitVec 128) (s : State), s.fault = 0x00#8 →
    (encode (cmpRow sg a b)).cw = tableWord 0x23 sg .w128 0#8 ∧
    (val sg a < val sg b → exec (cmpRow sg a b) s = .next (completed 0xFF#8 s)) ∧
    (val sg a = val sg b → exec (cmpRow sg a b) s = .next (completed 0x00#8 s)) ∧
    (val sg b < val sg a → exec (cmpRow sg a b) s = .next (completed 0x01#8 s)) ∧
    exec (cmpRow sg a b) s = .next (completed (enc 8 (emuCmp sg a b)) s) ∧
    (a = b → exec (cmpRow sg a b) s = .next (completed 0x00#8 s)) ∧
    ∀ r : Request, opNumber r.cw = 0x23 → widthNumber r.cw ≠ 4 ∨ bitsNumber r.cw ≠ 0 → decode r = .error .illegalEncoding

/-- The adder and subtractor composed from halves (R246) give `enc_128` of the exact sum and difference, and ADDW and SUBW reduce
them to `bits`. -/
def Obligations.ComposedAddAndSubAgree : Prop :=
  ∀ (sg : Sign) (bits : BitVec 8) (a b : BitVec 128) (s : State),
    emuAdd a b = enc 128 (val sg a + val sg b) ∧ emuSub a b = enc 128 (val sg a - val sg b) ∧
    (s.fault = 0x00#8 → LegalWidth .w128 bits → canonical sg bits.toNat a = true → canonical sg bits.toNat b = true →
      exec (addwRow sg .w128 bits a b) s = .next (completed (wrapValue sg bits.toNat (emuAdd a b)) s) ∧
      exec (subwRow sg .w128 bits a b) s = .next (completed (wrapValue sg bits.toNat (emuSub a b)) s))

/-- R247: the shifts composed from halves give the 128-bit results, for every amount 0..127. -/
def Obligations.ComposedShiftsAgree : Prop :=
  ∀ (sg : Sign) (bits : BitVec 8) (a : BitVec 128) (n : BitVec 8) (s : State), s.fault = 0x00#8 →
    LegalWidth .w128 bits → canonical sg bits.toNat a = true → n.toNat ≤ 127 →
    exec (shlRow sg .w128 bits a n) s = .next (completed (wrapValue sg bits.toNat (emuShl a n.toNat)) s) ∧
    exec (shrRow sg .w128 bits a n) s = .next (completed (emuShr sg a n.toNat) s)

/-- R245: the bitwise operations half by half give the 128-bit results. R248: the product from the widening multiply and the two
cross products is `enc_128` of the exact one, for both signednesses, and MULW reduces it to `bits`. -/
def Obligations.ComposedBitwiseAndProductAgree : Prop :=
  ∀ (sg : Sign) (bits : BitVec 8) (a b : BitVec 128) (s : State), s.fault = 0x00#8 →
    LegalWidth .w128 bits → canonical sg bits.toNat a = true → canonical sg bits.toNat b = true →
    exec (andRow sg .w128 bits a b) s = .next (completed (emuBitwise (· &&& ·) a b) s) ∧
    exec (orRow sg .w128 bits a b) s = .next (completed (emuBitwise (· ||| ·) a b) s) ∧
    exec (xorRow sg .w128 bits a b) s = .next (completed (emuBitwise (· ^^^ ·) a b) s) ∧
    exec (notRow sg .w128 bits a) s = .next (completed (wrapValue sg bits.toNat (emuComplement a)) s) ∧
    emuMul a b = enc 128 (val sg a * val sg b) ∧
    exec (mulwRow sg .w128 bits a b) s = .next (completed (wrapValue sg bits.toNat (emuMul a b)) s)

/-- R128: the right shift by XOR with a sign mask gives the value of SHR at s = i, at every width and amount. -/
def Obligations.SignMaskShiftIsArithmetic : Prop :=
  ∀ (w : Width) (a : BitVec w.bits) (amt : Nat), signMaskShr a amt = enc w.bits (fdiv a.toInt (2 ^ amt))

/-! ## Values (00_scope.md, 42_overflow_checked.md, 43_saturating.md) -/

/-- R18: `wrapv(s, bits, v)` is the one integer in range and congruent to v. -/
def Obligations.WrapvIsTheUniqueReduction : Prop :=
  ∀ (sg : Sign) (bits : Nat) (v x : Int), 1 ≤ bits →
    (x = wrapv sg bits v ↔ minInt sg bits ≤ x ∧ x ≤ maxInt sg bits ∧ (2 ^ bits : Int) ∣ x - v)

/-- R20: canonical means zeros above for s = u, and copies of bit `bits-1` above for s = i. -/
def Obligations.CanonicalMeansExtended : Prop :=
  ∀ (w : Width) (bits : Nat) (x : BitVec w.bits), 1 ≤ bits → bits ≤ w.bits →
    (canonical .u bits x = true ↔ ∀ k, bits ≤ k → k < w.bits → x.getLsbD k = false) ∧
    (canonical .i bits x = true ↔ ∀ k, bits - 1 ≤ k → k < w.bits → x.getLsbD k = x.getLsbD (bits - 1))

/-- R171: the flag as the source composes it is the flag of R170, at every LogicalWidth of a container. -/
def Obligations.ComposedFlagIsTheExactFlag : Prop :=
  ∀ (sg : Sign) (w : Width) (bits : BitVec 8) (exact : Int), LegalWidth w bits →
    (composedFlag sg w.bits bits.toNat exact = true ↔
      exact < minInt sg bits.toNat ∨ maxInt sg bits.toNat < exact)

/-- R191: saturation to the bound the operands' signs imply is the clamp, for operands in range. -/
def Obligations.SignBoundsAreTheClamp : Prop :=
  ∀ (sg : Sign) (bits : Nat) (x y : Int), 1 ≤ bits →
    minInt sg bits ≤ x → x ≤ maxInt sg bits → minInt sg bits ≤ y → y ≤ maxInt sg bits →
    saturateTo (addBound sg bits x y) sg bits (x + y) = clamp sg bits (x + y) ∧
    saturateTo (subBound sg bits x y) sg bits (x - y) = clamp sg bits (x - y) ∧
    saturateTo (mulBound sg bits x y) sg bits (x * y) = clamp sg bits (x * y)

/-! ## Encoding (30_encoding.md) -/

/-- R98: the six worked encodings, in both directions. -/
def Obligations.WorkedEncodings : Prop :=
  decode ⟨0x0000140C#32, 30#128, 1#128⟩ = .ok (.addoU8 5#8 30#8 1#8) ∧
  (∀ a b : BitVec 32, decode ⟨0x00008150#32, a.setWidth 128, b.setWidth 128⟩ = .ok (.addsI32 32#8 a b)) ∧
  decode ⟨0x00001418#32, 3#128, 0#128⟩ = .ok (.clzU8 5#8 3#8) ∧
  (∀ a : BitVec 128, decode ⟨0x00020205#32, a, 64#128⟩ = .ok (.shlU128 128#8 a 64#8)) ∧
  (∀ a b : BitVec 64, decode ⟨0x00000260#32, a.setWidth 128, b.setWidth 128⟩ = .ok (.makeI128 a b)) ∧
  decode ⟨0x000101D6#32, (-7#64).setWidth 128, 2#128⟩ = .ok (.divFloorI64 64#8 (-7#64) 2#64) ∧
  (encode (.addoU8 5#8 30#8 1#8)).cw = 0x0000140C#32 ∧
  (∀ a b, (encode (.addsI32 32#8 a b)).cw = 0x00008150#32) ∧
  (encode (.clzU8 5#8 3#8)).cw = 0x00001418#32 ∧
  (∀ a, (encode (.shlU128 128#8 a 64#8)).cw = 0x00020205#32) ∧
  (∀ a b, (encode (.makeI128 a b)).cw = 0x00000260#32) ∧
  (encode (.divFloorI64 64#8 (-7#64) 2#64)).cw = 0x000101D6#32

/-- Decoding the request of any instruction gives the instruction, at every BITS and every operand. -/
def Obligations.DecodeInvertsEncode : Prop :=
  ∀ i : Instr, decode (encode i) = .ok i

/-- A request that decodes has the control word of its instruction, and is its instruction's request where its lanes carry
nothing above the operands: no two control words name one instruction. -/
def Obligations.EncodeInvertsDecode : Prop :=
  ∀ (r : Request) (i : Instr), decode r = .ok i →
    (encode i).cw = r.cw ∧ (r.lanesOk (fieldsOf i).op (fieldsOf i).w = true → encode i = r)

/-- R89, R90, R91: every control word is exactly one of legal, reserved and illegal; a legal one decodes, and the others fault
when they are met, with ReservedOp and IllegalEncoding, whatever the operands. -/
def Obligations.EveryControlWordIsOneKind : Prop :=
  ∀ (cw : ControlWord) (a b : BitVec 128) (rest : List HostAction) (s : State),
    s.host = .request ⟨cw, a, b⟩ :: rest → s.fault = 0x00#8 →
    ((LegalWord cw ∧ ¬ReservedWord cw ∧ ¬IllegalWord cw) ∨ (¬LegalWord cw ∧ ReservedWord cw ∧ ¬IllegalWord cw) ∨
      (¬LegalWord cw ∧ ¬ReservedWord cw ∧ IllegalWord cw)) ∧
    (LegalWord cw ↔ ∃ i, decode ⟨cw, a, b⟩ = .ok i) ∧
    (ReservedWord cw → step s = .next (faulted .reservedOp { s with host := rest })) ∧
    (IllegalWord cw → step s = .next (faulted .illegalEncoding { s with host := rest }))

/-- R97: an assembler line is exactly one request, and decodes to the row its mnemonic names with the BITS it writes. -/
def Obligations.AssembledLineIsItsRow : Prop :=
  (∀ (l : AsmLine) (r : Request), assemble l = some r → ∃ i, decode r = .ok i ∧ (fieldsOf i).op = l.op ∧
    (fieldsOf i).sg = l.sg ∧ (fieldsOf i).w = l.w ∧ (fieldsOf i).bits.toNat = l.bits.getD 0) ∧
  ∀ (op op' : Op) (sg sg' : Sign) (w w' : Width), mnemonic op sg w = mnemonic op' sg' w' →
    op = op' ∧ sg = sg' ∧ w = w'

/-! ## Requests, faults, reads and reset (10_state.md, 60_exceptions.md, 70_reset_and_hazards.md) -/

/-- A step at which the host makes a request runs the instruction the request decodes to, on the state with that action taken. -/
def Obligations.StepRunsDecodedRequest : Prop :=
  ∀ (s : State) (r : Request) (rest : List HostAction) (i : Instr),
    s.host = .request r :: rest → decode r = .ok i → step s = exec i { s with host := rest }

/-- R310, R311: a request reports the first row of the check sequence that applies and nothing else of it happens; one to which
no row applies completes. -/
def Obligations.RequestsFollowTheCheckOrder : Prop :=
  (∀ (s : State) (r : Request) (rest : List HostAction), s.host = .request r :: rest → s.fault = 0x00#8 →
    (∀ c, firstCheck r = some c → step s = .next (faulted c { s with host := rest })) ∧
    (firstCheck r = none → ∃ (l : Latch) (o : Option Bool), step s = .next { s with host := rest, res := some l, ovf := o })) ∧
  firstCheck ⟨0x00002454#32, 0#128, 0#128⟩ = some .badLogicalWidth ∧
  firstCheck ⟨0x00001454#32, 0x20#128, 0#128⟩ = some .nonCanonicalOperand

/-- R312: fault entry of requests and of host reads, in one step. The action leaves the host's list, and what a read without a
value shows (`v`) is not said here: both are the model's own fields. -/
def Obligations.FaultEntryEmptiesTheLatches : Prop :=
  (∀ (s : State) (r : Request) (rest : List HostAction) (c : FaultCode), s.host = .request r :: rest → s.fault = 0x00#8 →
    firstCheck r = some c →
    step s = .next { s with host := rest, fault := c.code, res := none, ovf := none }) ∧
  (∀ (s : State) (n : BitVec 8) (rest : List HostAction), s.host = .read n :: rest → readRegister n s = none →
    ∃ v, step s = .next { s with
      host := rest, readValue := v, fault := if s.fault = 0x00#8 then 0x09#8 else s.fault, res := none, ovf := none })

/-- R313: a faulted block has no step under any request, still answers reads of FAULT and CFG, never clears or changes FAULT
but by reset, and is never at the end of a run. -/
def Obligations.FaultedBlockIsQuiescent : Prop :=
  ∀ s : State, s.fault ≠ 0x00#8 →
    (∀ r rest, s.host = .request r :: rest → step s = .fault .requestNotAccepted) ∧
    (∀ i, exec i s = .fault .requestNotAccepted) ∧
    (∀ rest, s.host = .read 2#8 :: rest → step s = .next { s with host := rest, readValue := some (.byte s.fault) }) ∧
    (∀ rest, s.host = .read 3#8 :: rest → step s = .next { s with host := rest, readValue := some (.byte (cfgByte s.cfg)) }) ∧
    (∀ t, step s = .next t → t.fault = s.fault ∨ ∃ rest, s.host = .reset :: rest) ∧
    ¬RunEnded s

/-- R44: with FAULT = 0x00 every request is answered in one step, by completing or by a fault; otherwise it has no step. -/
def Obligations.OneRequestIsOneStep : Prop :=
  ∀ (s : State) (r : Request) (rest : List HostAction), s.host = .request r :: rest →
    (s.fault = 0x00#8 → ∃ t, step s = .next t ∧ t.host = rest ∧
      ((t.fault = 0x00#8 ∧ t.res ≠ none) ∨ ((∃ c : FaultCode, t.fault = c.code) ∧ t.res = none ∧ t.ovf = none))) ∧
    (s.fault ≠ 0x00#8 → step s = .fault .requestNotAccepted)

/-- Every step from a state of the invariant leads to one: the fault code is listed, a faulted block's latches are empty, RES
has a width of the block, OVF is never alone, CFG holds its parameter values. -/
def Obligations.StepKeepsInvariant : Prop :=
  ∀ s t : State, Inv s → step s = .next t → Inv t

/-- The state after reset meets the invariant. -/
def Obligations.ResetStateMeetsInvariant : Prop :=
  Inv State.reset

/-- R43, R340: reset leaves RES and OVF empty, FAULT 0x00 and CFG at its parameter values, from every state, in one step, and
no other step clears FAULT. -/
def Obligations.ResetRestoresTheBlock : Prop :=
  (∀ (s : State) (rest : List HostAction), s.host = .reset :: rest →
    ∃ t, step s = .next t ∧ t.res = none ∧ t.ovf = none ∧ t.fault = 0x00#8 ∧ t.cfg = Cfg.parameters) ∧
  State.reset.res = none ∧ State.reset.ovf = none ∧ State.reset.fault = 0x00#8 ∧
  State.reset.cfg = Cfg.parameters ∧
  (∀ s t : State, s.fault ≠ 0x00#8 → step s = .next t → t.fault = 0x00#8 → ∃ rest, s.host = .reset :: rest)

/-- THE MODEL'S CHOICE (log entries 1, 2, 3 and 6), no rule of the spec: with no host action an unfaulted block stays as it is and
a faulted one stops; a request, a read and a reset each take one action off the host's list; a request leaves the last read
value, and reset drops it. -/
def Obligations.ModelFieldsAroundAStep : Prop :=
  ∀ s : State,
    (s.host = [] → s.fault = 0x00#8 → step s = .next s) ∧
    (s.host = [] → s.fault ≠ 0x00#8 → step s = .fault .faultedIdle) ∧
    (∀ a rest t, s.host = a :: rest → step s = .next t → t.host = rest) ∧
    (∀ r rest t, s.host = .request r :: rest → step s = .next t → t.readValue = s.readValue) ∧
    (∀ rest, s.host = .reset :: rest → ∃ t, step s = .next t ∧ t.readValue = none ∧ t.host = rest)

/-- R37: a read of RES or OVF returns what it holds; of an empty one, or of a number from 4 to 255, it has no value and raises
BadRead, which keeps an earlier code. -/
def Obligations.HostReadsOfLatches : Prop :=
  ∀ (s : State) (n : BitVec 8) (rest : List HostAction), s.host = .read n :: rest →
    (∀ l, n = 0#8 → s.res = some l → step s = .next { s with host := rest, readValue := some (.latch l) }) ∧
    (∀ f, n = 1#8 → s.ovf = some f → step s = .next { s with host := rest, readValue := some (.flag f) }) ∧
    ((n = 0#8 ∧ s.res = none) ∨ (n = 1#8 ∧ s.ovf = none) ∨ 4 ≤ n.toNat →
      ∃ t, step s = .next t ∧ t.readValue = none ∧ t.res = none ∧ t.ovf = none ∧ t.cfg = s.cfg ∧ t.host = rest ∧
        (s.fault = 0x00#8 → t.fault = 0x09#8) ∧ (s.fault ≠ 0x00#8 → t.fault = s.fault))

/-- R38: a read of FAULT or CFG always succeeds, returns its 8-bit value and has no other effect. -/
def Obligations.HostReadsOfFaultAndCfg : Prop :=
  ∀ (s : State) (rest : List HostAction),
    (s.host = .read 2#8 :: rest → step s = .next { s with host := rest, readValue := some (.byte s.fault) }) ∧
    (s.host = .read 3#8 :: rest → step s = .next { s with host := rest, readValue := some (.byte (cfgByte s.cfg)) })

/-- R35: the places of CFG's fields, its reserved bit, and that no step but reset, which puts the parameter values there,
changes it. -/
def Obligations.CfgFieldsAndFixedness : Prop :=
  (∀ c : Cfg, (cfgByte c).getLsbD 0 = c.nativeInt128 ∧ (cfgByte c).getLsbD 1 = c.hwOvf ∧ (cfgByte c).getLsbD 2 = c.bitop8 ∧
    (cfgByte c).getLsbD 3 = c.bitop16 ∧ (cfgByte c).getLsbD 4 = c.bitop32 ∧ (cfgByte c).getLsbD 5 = c.bitop64 ∧
    (cfgByte c).getLsbD 6 = c.bitop128 ∧ (cfgByte c).getLsbD 7 = false) ∧
  State.reset.cfg = ⟨Config.nativeInt128, Config.hwOvf, Config.bitopIntrinsic .w8, Config.bitopIntrinsic .w16,
    Config.bitopIntrinsic .w32, Config.bitopIntrinsic .w64, Config.bitopIntrinsic .w128⟩ ∧
  ∀ s t : State, step s = .next t → t.cfg = s.cfg ∨ (∃ rest, s.host = .reset :: rest) ∧ t.cfg = State.reset.cfg

/-- R240: RES, OVF and any fault of a request are the same whatever CFG holds, at every width. -/
def Obligations.ResultsIgnoreConfiguration : Prop :=
  ∀ (s t : State) (r : Request) (rest : List HostAction) (c : Cfg), s.host = .request r :: rest →
    (step s = .next t → step { s with cfg := c } = .next { t with cfg := c }) ∧
    (∀ f, step s = .fault f → step { s with cfg := c } = .fault f)

/-- R23: an instruction's response depends on the instruction alone, and it writes RES, OVF and, on a fault, FAULT only. -/
def Obligations.ResponseIsAFunctionOfTheRequest : Prop :=
  ∀ (i : Instr) (s t : State), s.fault = 0x00#8 → t.fault = 0x00#8 →
    ∃ (l : Option Latch) (o : Option Bool) (f : BitVec 8),
      exec i s = .next { s with res := l, ovf := o, fault := f } ∧
      exec i t = .next { t with res := l, ovf := o, fault := f } ∧
      (l ≠ none → f = 0x00#8)

/-- R85: the width of every operation's result, and whether it writes OVF. -/
def Obligations.ResultWidthsAndFlags : Prop :=
  ∀ (i : Instr) (s t : State), s.fault = 0x00#8 → exec i s = .next t → t.fault = 0x00#8 →
    (∃ y : BitVec (match (fieldsOf i).op with
        | .clz => 8 | .ctz => 8 | .popcount => 8 | .cmp => 8 | .hi => 64 | .lo => 64 | .make => 128
        | _ => (fieldsOf i).w.bits), t.res = some ⟨_, y⟩) ∧
    (t.ovf.isSome = true ↔ (fieldsOf i).op ∈ [Op.addo, .subo, .mulo])
end

