-- ==== Sys2Proof/Laws/State.lean ====
section
/-!
SUPPORT. What each update of the state does to each field, true by rfl: later proofs rewrite with these and unfold no update.
-/

namespace Sys2Proof.Machine

section raiseFault
variable (c : FaultCode) (s : State)
@[simp] theorem raiseFault_res : (raiseFault c s).res = none := rfl
@[simp] theorem raiseFault_ovf : (raiseFault c s).ovf = none := rfl
@[simp] theorem raiseFault_cfg : (raiseFault c s).cfg = s.cfg := rfl
@[simp] theorem raiseFault_host : (raiseFault c s).host = s.host := rfl
@[simp] theorem raiseFault_readValue : (raiseFault c s).readValue = s.readValue := rfl
theorem raiseFault_fault : (raiseFault c s).fault = if s.fault = 0x00#8 then c.code else s.fault := rfl
/-- From an unfaulted state, taking a fault is `faulted`. -/
theorem raiseFault_eq_faulted {s : State} (h : s.fault = 0x00#8) : raiseFault c s = faulted c s := by
  simp [raiseFault, faulted, h]
end raiseFault

section faulted
variable (c : FaultCode) (s : State)
@[simp] theorem faulted_res : (faulted c s).res = none := rfl
@[simp] theorem faulted_ovf : (faulted c s).ovf = none := rfl
@[simp] theorem faulted_fault : (faulted c s).fault = c.code := rfl
@[simp] theorem faulted_cfg : (faulted c s).cfg = s.cfg := rfl
@[simp] theorem faulted_host : (faulted c s).host = s.host := rfl
@[simp] theorem faulted_readValue : (faulted c s).readValue = s.readValue := rfl
end faulted

section complete
variable (l : Latch) (o : Option Bool) (s : State)
@[simp] theorem complete_res : (complete l o s).res = some l := rfl
@[simp] theorem complete_ovf : (complete l o s).ovf = o := rfl
@[simp] theorem complete_fault : (complete l o s).fault = s.fault := rfl
@[simp] theorem complete_cfg : (complete l o s).cfg = s.cfg := rfl
@[simp] theorem complete_host : (complete l o s).host = s.host := rfl
@[simp] theorem complete_readValue : (complete l o s).readValue = s.readValue := rfl
/-- A completion without a flag is `completed`. -/
@[simp] theorem complete_none {n : Nat} (y : BitVec n) : complete ⟨n, y⟩ none s = completed y s := rfl
/-- A completion with a flag is `completedWithFlag`. -/
@[simp] theorem complete_some {n : Nat} (y : BitVec n) (f : Bool) :
    complete ⟨n, y⟩ (some f) s = completedWithFlag y f s := rfl
end complete

section completed
variable {n : Nat} (y : BitVec n) (f : Bool) (s : State)
@[simp] theorem completed_res : (completed y s).res = some ⟨n, y⟩ := rfl
@[simp] theorem completed_ovf : (completed y s).ovf = none := rfl
@[simp] theorem completed_fault : (completed y s).fault = s.fault := rfl
@[simp] theorem completed_cfg : (completed y s).cfg = s.cfg := rfl
@[simp] theorem completed_host : (completed y s).host = s.host := rfl
@[simp] theorem completed_readValue : (completed y s).readValue = s.readValue := rfl
@[simp] theorem completedWithFlag_res : (completedWithFlag y f s).res = some ⟨n, y⟩ := rfl
@[simp] theorem completedWithFlag_ovf : (completedWithFlag y f s).ovf = some f := rfl
@[simp] theorem completedWithFlag_fault : (completedWithFlag y f s).fault = s.fault := rfl
@[simp] theorem completedWithFlag_cfg : (completedWithFlag y f s).cfg = s.cfg := rfl
@[simp] theorem completedWithFlag_host : (completedWithFlag y f s).host = s.host := rfl
@[simp] theorem completedWithFlag_readValue : (completedWithFlag y f s).readValue = s.readValue := rfl
end completed

section reset
variable (s : State)
@[simp] theorem reset_res : State.reset.res = none := rfl
@[simp] theorem reset_ovf : State.reset.ovf = none := rfl
@[simp] theorem reset_fault : State.reset.fault = 0x00#8 := rfl
@[simp] theorem reset_cfg : State.reset.cfg = Cfg.parameters := rfl
@[simp] theorem reset_host : State.reset.host = [] := rfl
@[simp] theorem reset_readValue : State.reset.readValue = none := rfl
@[simp] theorem resetBlock_res : (resetBlock s).res = none := rfl
@[simp] theorem resetBlock_ovf : (resetBlock s).ovf = none := rfl
@[simp] theorem resetBlock_fault : (resetBlock s).fault = 0x00#8 := rfl
@[simp] theorem resetBlock_cfg : (resetBlock s).cfg = Cfg.parameters := rfl
@[simp] theorem resetBlock_host : (resetBlock s).host = s.host := rfl
@[simp] theorem resetBlock_readValue : (resetBlock s).readValue = none := rfl
end reset

section withFetchWord
variable (s : State) (nbits w : Nat)
@[simp] theorem withFetchWord_host :
    (s.withFetchWord nbits w).host = .request (requestOfNat nbits w) :: s.host := rfl
@[simp] theorem withFetchWord_fault : (s.withFetchWord nbits w).fault = s.fault := rfl
@[simp] theorem withFetchWord_res : (s.withFetchWord nbits w).res = s.res := rfl
@[simp] theorem withFetchWord_ovf : (s.withFetchWord nbits w).ovf = s.ovf := rfl
@[simp] theorem withFetchWord_cfg : (s.withFetchWord nbits w).cfg = s.cfg := rfl
@[simp] theorem withFetchWord_readValue : (s.withFetchWord nbits w).readValue = s.readValue := rfl
end withFetchWord

end Sys2Proof.Machine
end

