-- ==== Sys2Proof/Laws/Ops.lean ====
section
/-!
SUPPORT. What each shared operation over the state can do, said once: accepting, serving, rejecting, reading, resetting.
-/

namespace Sys2Proof.Machine

/-- No fault has the code 0x00, which means no fault. -/
@[simp] theorem code_ne_zero (c : FaultCode) : c.code ≠ 0x00#8 := by cases c <;> decide

/-- Every fault code is one of 0x01 to 0x09. -/
theorem code_le_nine (c : FaultCode) : c.code.toNat ≤ 9 := by cases c <;> decide

theorem accept_of_unfaulted {s : State} (h : s.fault = 0x00#8) (k : State → Result) : accept s k = k s := by
  simp [accept, h]

theorem accept_of_faulted {s : State} (h : s.fault ≠ 0x00#8) (k : State → Result) :
    accept s k = .fault .requestNotAccepted := by
  simp [accept, h]

@[simp] theorem firstFault_nil : firstFault [] = none := rfl

@[simp] theorem firstFault_cons (b : Bool) (c : FaultCode) (rest : List (Bool × FaultCode)) :
    firstFault ((b, c) :: rest) = if b then some c else firstFault rest := by
  cases b <;> rfl

theorem firstFault_append (xs ys : List (Bool × FaultCode)) :
    firstFault (xs ++ ys) = (firstFault xs).or (firstFault ys) := by
  induction xs with
  | nil => simp
  | cons x xs ih => obtain ⟨b, c⟩ := x; cases b <;> simp [ih]

/-- An unfaulted block serves a request by the first check that applies, or completes it. -/
theorem serve_of_unfaulted {s : State} (h : s.fault = 0x00#8) (checks : List (Bool × FaultCode)) (l : Latch)
    (o : Option Bool) :
    serve checks l o s = .next (match firstFault checks with | some c => faulted c s | none => complete l o s) := by
  rw [serve, accept_of_unfaulted h]
  cases firstFault checks with
  | none => rfl
  | some c => simp [raiseFault_eq_faulted c h]

/-- A check that applies first decides the answer. -/
theorem serve_faults {s : State} (h : s.fault = 0x00#8) {checks : List (Bool × FaultCode)} {c : FaultCode}
    (hc : firstFault checks = some c) (l : Latch) (o : Option Bool) : serve checks l o s = .next (faulted c s) := by
  rw [serve_of_unfaulted h, hc]

/-- Where no check applies the request completes. -/
theorem serve_completes {s : State} (h : s.fault = 0x00#8) {checks : List (Bool × FaultCode)}
    (hc : firstFault checks = none) (l : Latch) (o : Option Bool) : serve checks l o s = .next (complete l o s) := by
  rw [serve_of_unfaulted h, hc]

/-- A faulted block serves nothing. -/
theorem serve_of_faulted {s : State} (h : s.fault ≠ 0x00#8) (checks : List (Bool × FaultCode)) (l : Latch)
    (o : Option Bool) : serve checks l o s = .fault .requestNotAccepted :=
  accept_of_faulted h _

/-- Everything a served request can do when it answers a next state. -/
theorem serve_next {checks : List (Bool × FaultCode)} {l : Latch} {o : Option Bool} {s t : State}
    (h : serve checks l o s = .next t) :
    s.fault = 0x00#8 ∧
      ((∃ c, firstFault checks = some c ∧ t = faulted c s) ∨ (firstFault checks = none ∧ t = complete l o s)) := by
  by_cases hs : s.fault = 0x00#8
  · rw [serve_of_unfaulted hs] at h
    cases hc : firstFault checks <;> simp_all
  · rw [serve_of_faulted hs] at h; cases h

theorem rejectRequest_of_unfaulted {s : State} (h : s.fault = 0x00#8) (c : FaultCode) :
    rejectRequest c s = .next (faulted c s) := by
  rw [rejectRequest, accept_of_unfaulted h, raiseFault_eq_faulted c h]

theorem rejectRequest_of_faulted {s : State} (h : s.fault ≠ 0x00#8) (c : FaultCode) :
    rejectRequest c s = .fault .requestNotAccepted :=
  accept_of_faulted h _

/-- Everything a rejected request can do when it answers a next state. -/
theorem rejectRequest_next {c : FaultCode} {s t : State} (h : rejectRequest c s = .next t) :
    s.fault = 0x00#8 ∧ t = faulted c s := by
  by_cases hs : s.fault = 0x00#8
  · rw [rejectRequest_of_unfaulted hs] at h; cases h; exact ⟨hs, rfl⟩
  · rw [rejectRequest_of_faulted hs] at h; cases h

@[simp] theorem readRegister_res (s : State) : readRegister 0#8 s = s.res.map ReadValue.latch := rfl
@[simp] theorem readRegister_ovf (s : State) : readRegister 1#8 s = s.ovf.map ReadValue.flag := rfl
@[simp] theorem readRegister_fault (s : State) : readRegister 2#8 s = some (.byte s.fault) := rfl
@[simp] theorem readRegister_cfg (s : State) : readRegister 3#8 s = some (.byte (cfgByte s.cfg)) := rfl

/-- Numbers 4 to 255 name no register. -/
theorem readRegister_none {n : BitVec 8} (h : 4 ≤ n.toNat) (s : State) : readRegister n s = none := by
  unfold readRegister
  split <;> first | rfl | omega

/-- A read that has a value changes nothing of the block. -/
theorem hostRead_some {n : BitVec 8} {s : State} {v : ReadValue} (h : readRegister n s = some v) :
    hostRead n s = { s with readValue := some v } := by
  simp [hostRead, h]

/-- A read that has no value raises BadRead. -/
theorem hostRead_none {n : BitVec 8} {s : State} (h : readRegister n s = none) :
    hostRead n s = raiseFault .badRead { s with readValue := none } := by
  simp [hostRead, h]

/-- A read returns the value and leaves the block's registers, or raises BadRead. -/
theorem hostRead_cases (n : BitVec 8) (s : State) :
    (∃ v, readRegister n s = some v ∧ hostRead n s = { s with readValue := some v }) ∨
      (readRegister n s = none ∧ hostRead n s = raiseFault .badRead { s with readValue := none }) := by
  cases h : readRegister n s with
  | some v => exact .inl ⟨v, rfl, hostRead_some h⟩
  | none => exact .inr ⟨rfl, hostRead_none h⟩

theorem idle_of_unfaulted {s : State} (h : s.fault = 0x00#8) : idle s = .next s := by simp [idle, h]

theorem idle_of_faulted {s : State} (h : s.fault ≠ 0x00#8) : idle s = .fault .faultedIdle := by simp [idle, h]

end Sys2Proof.Machine
end

