-- ==== Sys2Proof/Laws/Rows.lean ====
section
/-!
SUPPORT. The rows of an operation: each runs the operation's shared definition at its own signedness and width, has the fields
it was built from, and is encoded from them.
-/

namespace Sys2Proof.Machine

@[simp] theorem exec_wrapRow (sg : Sign) (w : Width) (bits : BitVec 8) (a : BitVec w.bits) (s : State) :
    exec (wrapRow sg w bits a) s = wrap sg w.bits bits a s := by cases sg <;> cases w <;> rfl

@[simp] theorem fieldsOf_wrapRow (sg : Sign) (w : Width) (bits : BitVec 8) (a : BitVec w.bits) :
    fieldsOf (wrapRow sg w bits a) = ⟨.wrap, sg, w, bits, (a.setWidth 128), 0#128⟩ := by
  cases sg <;> cases w <;> rfl

@[simp] theorem exec_notRow (sg : Sign) (w : Width) (bits : BitVec 8) (a : BitVec w.bits) (s : State) :
    exec (notRow sg w bits a) s = not sg w.bits bits a s := by cases sg <;> cases w <;> rfl

@[simp] theorem fieldsOf_notRow (sg : Sign) (w : Width) (bits : BitVec 8) (a : BitVec w.bits) :
    fieldsOf (notRow sg w bits a) = ⟨.not, sg, w, bits, (a.setWidth 128), 0#128⟩ := by
  cases sg <;> cases w <;> rfl

@[simp] theorem exec_andRow (sg : Sign) (w : Width) (bits : BitVec 8) (a b : BitVec w.bits) (s : State) :
    exec (andRow sg w bits a b) s = and sg w.bits bits a b s := by cases sg <;> cases w <;> rfl

@[simp] theorem fieldsOf_andRow (sg : Sign) (w : Width) (bits : BitVec 8) (a b : BitVec w.bits) :
    fieldsOf (andRow sg w bits a b) = ⟨.and, sg, w, bits, (a.setWidth 128), (b.setWidth 128)⟩ := by
  cases sg <;> cases w <;> rfl

@[simp] theorem exec_orRow (sg : Sign) (w : Width) (bits : BitVec 8) (a b : BitVec w.bits) (s : State) :
    exec (orRow sg w bits a b) s = or sg w.bits bits a b s := by cases sg <;> cases w <;> rfl

@[simp] theorem fieldsOf_orRow (sg : Sign) (w : Width) (bits : BitVec 8) (a b : BitVec w.bits) :
    fieldsOf (orRow sg w bits a b) = ⟨.or, sg, w, bits, (a.setWidth 128), (b.setWidth 128)⟩ := by
  cases sg <;> cases w <;> rfl

@[simp] theorem exec_xorRow (sg : Sign) (w : Width) (bits : BitVec 8) (a b : BitVec w.bits) (s : State) :
    exec (xorRow sg w bits a b) s = xor sg w.bits bits a b s := by cases sg <;> cases w <;> rfl

@[simp] theorem fieldsOf_xorRow (sg : Sign) (w : Width) (bits : BitVec 8) (a b : BitVec w.bits) :
    fieldsOf (xorRow sg w bits a b) = ⟨.xor, sg, w, bits, (a.setWidth 128), (b.setWidth 128)⟩ := by
  cases sg <;> cases w <;> rfl

@[simp] theorem exec_shlRow (sg : Sign) (w : Width) (bits : BitVec 8) (a : BitVec w.bits) (b : BitVec 8) (s : State) :
    exec (shlRow sg w bits a b) s = shl sg w.bits bits a b s := by cases sg <;> cases w <;> rfl

@[simp] theorem fieldsOf_shlRow (sg : Sign) (w : Width) (bits : BitVec 8) (a : BitVec w.bits) (b : BitVec 8) :
    fieldsOf (shlRow sg w bits a b) = ⟨.shl, sg, w, bits, (a.setWidth 128), (b.setWidth 128)⟩ := by
  cases sg <;> cases w <;> rfl

@[simp] theorem exec_shrRow (sg : Sign) (w : Width) (bits : BitVec 8) (a : BitVec w.bits) (b : BitVec 8) (s : State) :
    exec (shrRow sg w bits a b) s = shr sg w.bits bits a b s := by cases sg <;> cases w <;> rfl

@[simp] theorem fieldsOf_shrRow (sg : Sign) (w : Width) (bits : BitVec 8) (a : BitVec w.bits) (b : BitVec 8) :
    fieldsOf (shrRow sg w bits a b) = ⟨.shr, sg, w, bits, (a.setWidth 128), (b.setWidth 128)⟩ := by
  cases sg <;> cases w <;> rfl

@[simp] theorem exec_addwRow (sg : Sign) (w : Width) (bits : BitVec 8) (a b : BitVec w.bits) (s : State) :
    exec (addwRow sg w bits a b) s = addw sg w.bits bits a b s := by cases sg <;> cases w <;> rfl

@[simp] theorem fieldsOf_addwRow (sg : Sign) (w : Width) (bits : BitVec 8) (a b : BitVec w.bits) :
    fieldsOf (addwRow sg w bits a b) = ⟨.addw, sg, w, bits, (a.setWidth 128), (b.setWidth 128)⟩ := by
  cases sg <;> cases w <;> rfl

@[simp] theorem exec_subwRow (sg : Sign) (w : Width) (bits : BitVec 8) (a b : BitVec w.bits) (s : State) :
    exec (subwRow sg w bits a b) s = subw sg w.bits bits a b s := by cases sg <;> cases w <;> rfl

@[simp] theorem fieldsOf_subwRow (sg : Sign) (w : Width) (bits : BitVec 8) (a b : BitVec w.bits) :
    fieldsOf (subwRow sg w bits a b) = ⟨.subw, sg, w, bits, (a.setWidth 128), (b.setWidth 128)⟩ := by
  cases sg <;> cases w <;> rfl

@[simp] theorem exec_mulwRow (sg : Sign) (w : Width) (bits : BitVec 8) (a b : BitVec w.bits) (s : State) :
    exec (mulwRow sg w bits a b) s = mulw sg w.bits bits a b s := by cases sg <;> cases w <;> rfl

@[simp] theorem fieldsOf_mulwRow (sg : Sign) (w : Width) (bits : BitVec 8) (a b : BitVec w.bits) :
    fieldsOf (mulwRow sg w bits a b) = ⟨.mulw, sg, w, bits, (a.setWidth 128), (b.setWidth 128)⟩ := by
  cases sg <;> cases w <;> rfl

@[simp] theorem exec_addoRow (sg : Sign) (w : Width) (bits : BitVec 8) (a b : BitVec w.bits) (s : State) :
    exec (addoRow sg w bits a b) s = addo sg w.bits bits a b s := by cases sg <;> cases w <;> rfl

@[simp] theorem fieldsOf_addoRow (sg : Sign) (w : Width) (bits : BitVec 8) (a b : BitVec w.bits) :
    fieldsOf (addoRow sg w bits a b) = ⟨.addo, sg, w, bits, (a.setWidth 128), (b.setWidth 128)⟩ := by
  cases sg <;> cases w <;> rfl

@[simp] theorem exec_suboRow (sg : Sign) (w : Width) (bits : BitVec 8) (a b : BitVec w.bits) (s : State) :
    exec (suboRow sg w bits a b) s = subo sg w.bits bits a b s := by cases sg <;> cases w <;> rfl

@[simp] theorem fieldsOf_suboRow (sg : Sign) (w : Width) (bits : BitVec 8) (a b : BitVec w.bits) :
    fieldsOf (suboRow sg w bits a b) = ⟨.subo, sg, w, bits, (a.setWidth 128), (b.setWidth 128)⟩ := by
  cases sg <;> cases w <;> rfl

@[simp] theorem exec_muloRow (sg : Sign) (w : Width) (bits : BitVec 8) (a b : BitVec w.bits) (s : State) :
    exec (muloRow sg w bits a b) s = mulo sg w.bits bits a b s := by cases sg <;> cases w <;> rfl

@[simp] theorem fieldsOf_muloRow (sg : Sign) (w : Width) (bits : BitVec 8) (a b : BitVec w.bits) :
    fieldsOf (muloRow sg w bits a b) = ⟨.mulo, sg, w, bits, (a.setWidth 128), (b.setWidth 128)⟩ := by
  cases sg <;> cases w <;> rfl

@[simp] theorem exec_addsRow (sg : Sign) (w : Width) (bits : BitVec 8) (a b : BitVec w.bits) (s : State) :
    exec (addsRow sg w bits a b) s = adds sg w.bits bits a b s := by cases sg <;> cases w <;> rfl

@[simp] theorem fieldsOf_addsRow (sg : Sign) (w : Width) (bits : BitVec 8) (a b : BitVec w.bits) :
    fieldsOf (addsRow sg w bits a b) = ⟨.adds, sg, w, bits, (a.setWidth 128), (b.setWidth 128)⟩ := by
  cases sg <;> cases w <;> rfl

@[simp] theorem exec_subsRow (sg : Sign) (w : Width) (bits : BitVec 8) (a b : BitVec w.bits) (s : State) :
    exec (subsRow sg w bits a b) s = subs sg w.bits bits a b s := by cases sg <;> cases w <;> rfl

@[simp] theorem fieldsOf_subsRow (sg : Sign) (w : Width) (bits : BitVec 8) (a b : BitVec w.bits) :
    fieldsOf (subsRow sg w bits a b) = ⟨.subs, sg, w, bits, (a.setWidth 128), (b.setWidth 128)⟩ := by
  cases sg <;> cases w <;> rfl

@[simp] theorem exec_mulsRow (sg : Sign) (w : Width) (bits : BitVec 8) (a b : BitVec w.bits) (s : State) :
    exec (mulsRow sg w bits a b) s = muls sg w.bits bits a b s := by cases sg <;> cases w <;> rfl

@[simp] theorem fieldsOf_mulsRow (sg : Sign) (w : Width) (bits : BitVec 8) (a b : BitVec w.bits) :
    fieldsOf (mulsRow sg w bits a b) = ⟨.muls, sg, w, bits, (a.setWidth 128), (b.setWidth 128)⟩ := by
  cases sg <;> cases w <;> rfl

@[simp] theorem exec_divTruncRow (sg : Sign) (w : Width) (bits : BitVec 8) (a b : BitVec w.bits) (s : State) :
    exec (divTruncRow sg w bits a b) s = divTrunc sg w.bits bits a b s := by cases sg <;> cases w <;> rfl

@[simp] theorem fieldsOf_divTruncRow (sg : Sign) (w : Width) (bits : BitVec 8) (a b : BitVec w.bits) :
    fieldsOf (divTruncRow sg w bits a b) = ⟨.divTrunc, sg, w, bits, (a.setWidth 128), (b.setWidth 128)⟩ := by
  cases sg <;> cases w <;> rfl

@[simp] theorem exec_remRow (sg : Sign) (w : Width) (bits : BitVec 8) (a b : BitVec w.bits) (s : State) :
    exec (remRow sg w bits a b) s = rem sg w.bits bits a b s := by cases sg <;> cases w <;> rfl

@[simp] theorem fieldsOf_remRow (sg : Sign) (w : Width) (bits : BitVec 8) (a b : BitVec w.bits) :
    fieldsOf (remRow sg w bits a b) = ⟨.rem, sg, w, bits, (a.setWidth 128), (b.setWidth 128)⟩ := by
  cases sg <;> cases w <;> rfl

@[simp] theorem exec_divFloorRow (sg : Sign) (w : Width) (bits : BitVec 8) (a b : BitVec w.bits) (s : State) :
    exec (divFloorRow sg w bits a b) s = divFloor sg w.bits bits a b s := by cases sg <;> cases w <;> rfl

@[simp] theorem fieldsOf_divFloorRow (sg : Sign) (w : Width) (bits : BitVec 8) (a b : BitVec w.bits) :
    fieldsOf (divFloorRow sg w bits a b) = ⟨.divFloor, sg, w, bits, (a.setWidth 128), (b.setWidth 128)⟩ := by
  cases sg <;> cases w <;> rfl

@[simp] theorem exec_modRow (sg : Sign) (w : Width) (bits : BitVec 8) (a b : BitVec w.bits) (s : State) :
    exec (modRow sg w bits a b) s = mod sg w.bits bits a b s := by cases sg <;> cases w <;> rfl

@[simp] theorem fieldsOf_modRow (sg : Sign) (w : Width) (bits : BitVec 8) (a b : BitVec w.bits) :
    fieldsOf (modRow sg w bits a b) = ⟨.mod, sg, w, bits, (a.setWidth 128), (b.setWidth 128)⟩ := by
  cases sg <;> cases w <;> rfl

@[simp] theorem exec_clzRow (sg : Sign) (w : Width) (bits : BitVec 8) (a : BitVec w.bits) (s : State) :
    exec (clzRow sg w bits a) s = clz sg w.bits bits a s := by cases sg <;> cases w <;> rfl

@[simp] theorem fieldsOf_clzRow (sg : Sign) (w : Width) (bits : BitVec 8) (a : BitVec w.bits) :
    fieldsOf (clzRow sg w bits a) = ⟨.clz, sg, w, bits, (a.setWidth 128), 0#128⟩ := by
  cases sg <;> cases w <;> rfl

@[simp] theorem exec_ctzRow (sg : Sign) (w : Width) (bits : BitVec 8) (a : BitVec w.bits) (s : State) :
    exec (ctzRow sg w bits a) s = ctz sg w.bits bits a s := by cases sg <;> cases w <;> rfl

@[simp] theorem fieldsOf_ctzRow (sg : Sign) (w : Width) (bits : BitVec 8) (a : BitVec w.bits) :
    fieldsOf (ctzRow sg w bits a) = ⟨.ctz, sg, w, bits, (a.setWidth 128), 0#128⟩ := by
  cases sg <;> cases w <;> rfl

@[simp] theorem exec_popcountRow (sg : Sign) (w : Width) (bits : BitVec 8) (a : BitVec w.bits) (s : State) :
    exec (popcountRow sg w bits a) s = popcount sg w.bits bits a s := by cases sg <;> cases w <;> rfl

@[simp] theorem fieldsOf_popcountRow (sg : Sign) (w : Width) (bits : BitVec 8) (a : BitVec w.bits) :
    fieldsOf (popcountRow sg w bits a) = ⟨.popcount, sg, w, bits, (a.setWidth 128), 0#128⟩ := by
  cases sg <;> cases w <;> rfl

@[simp] theorem exec_byteswapRow (sg : Sign) (w : Width) (bits : BitVec 8) (a : BitVec w.bits) (s : State) :
    exec (byteswapRow sg w bits a) s = byteswap sg w.bits bits a s := by cases sg <;> cases w <;> rfl

@[simp] theorem fieldsOf_byteswapRow (sg : Sign) (w : Width) (bits : BitVec 8) (a : BitVec w.bits) :
    fieldsOf (byteswapRow sg w bits a) = ⟨.byteswap, sg, w, bits, (a.setWidth 128), 0#128⟩ := by
  cases sg <;> cases w <;> rfl

@[simp] theorem exec_bitreverseRow (sg : Sign) (w : Width) (bits : BitVec 8) (a : BitVec w.bits) (s : State) :
    exec (bitreverseRow sg w bits a) s = bitreverse sg w.bits bits a s := by cases sg <;> cases w <;> rfl

@[simp] theorem fieldsOf_bitreverseRow (sg : Sign) (w : Width) (bits : BitVec 8) (a : BitVec w.bits) :
    fieldsOf (bitreverseRow sg w bits a) = ⟨.bitreverse, sg, w, bits, (a.setWidth 128), 0#128⟩ := by
  cases sg <;> cases w <;> rfl

@[simp] theorem exec_makeRow (sg : Sign) (a b : BitVec 64) (s : State) :
    exec (makeRow sg a b) s = make sg a b s := by cases sg <;> rfl

@[simp] theorem fieldsOf_makeRow (sg : Sign) (a b : BitVec 64) :
    fieldsOf (makeRow sg a b) = ⟨.make, sg, .w128, 0#8, (a.setWidth 128), (b.setWidth 128)⟩ := by
  cases sg <;> rfl

@[simp] theorem exec_hiRow (sg : Sign) (a : BitVec 128) (s : State) :
    exec (hiRow sg a) s = hi sg a s := by cases sg <;> rfl

@[simp] theorem fieldsOf_hiRow (sg : Sign) (a : BitVec 128) :
    fieldsOf (hiRow sg a) = ⟨.hi, sg, .w128, 0#8, a, 0#128⟩ := by
  cases sg <;> rfl

@[simp] theorem exec_loRow (sg : Sign) (a : BitVec 128) (s : State) :
    exec (loRow sg a) s = lo sg a s := by cases sg <;> rfl

@[simp] theorem fieldsOf_loRow (sg : Sign) (a : BitVec 128) :
    fieldsOf (loRow sg a) = ⟨.lo, sg, .w128, 0#8, a, 0#128⟩ := by
  cases sg <;> rfl

@[simp] theorem exec_cmpRow (sg : Sign) (a b : BitVec 128) (s : State) :
    exec (cmpRow sg a b) s = cmp sg a b s := by cases sg <;> rfl

@[simp] theorem fieldsOf_cmpRow (sg : Sign) (a b : BitVec 128) :
    fieldsOf (cmpRow sg a b) = ⟨.cmp, sg, .w128, 0#8, a, b⟩ := by
  cases sg <;> rfl

end Sys2Proof.Machine
end

