-- ==== Sys2Proof/Laws/Exec.lean ====
section
/-!
SUPPORT. What exec can do, said once for all 258 instructions: it is its row's shared operation, a request served with some
checks, a result of the width and a flag of the kind R85 gives.
-/

namespace Sys2Proof.Machine

/-- Every meaning serves a request, with a result of the operation's width and a flag where the operation writes one. -/
theorem exec_serves (i : Instr) (s : State) :
    ∃ checks l o, exec i s = serve checks l o s ∧ l.width = (fieldsOf i).op.resultWidth (fieldsOf i).w ∧
      o.isSome = (fieldsOf i).op.writesOvf := by
  cases i <;> first | exact ⟨_, _, _, rfl, rfl, rfl⟩ | exact ⟨[], _, none, rfl, rfl, rfl⟩

/-- The checks, the result and the flag of an instruction depend on the instruction alone. -/
theorem exec_serves_alike (i : Instr) : ∃ checks l o, ∀ s, exec i s = serve checks l o s := by
  cases i <;> first | exact ⟨_, _, _, fun _ => rfl⟩ | exact ⟨[], _, none, fun _ => rfl⟩

/-- Everything an instruction can do when it answers a next state: it faults, or it completes with a result of its width. -/
theorem exec_next {i : Instr} {s t : State} (h : exec i s = .next t) :
    s.fault = 0x00#8 ∧ ((∃ c, t = faulted c s) ∨
      ∃ l o, t = complete l o s ∧ l.width = (fieldsOf i).op.resultWidth (fieldsOf i).w ∧
        o.isSome = (fieldsOf i).op.writesOvf) := by
  obtain ⟨checks, l, o, he, hw, ho⟩ := exec_serves i s
  rw [he] at h
  obtain ⟨hf, ⟨c, -, rfl⟩ | ⟨-, rfl⟩⟩ := serve_next h
  · exact ⟨hf, .inl ⟨c, rfl⟩⟩
  · exact ⟨hf, .inr ⟨l, o, rfl, hw, ho⟩⟩

end Sys2Proof.Machine
end

