-- ==== Sys2Proof/Laws/Decode.lean ====
section
/-!
SUPPORT. The fields of a packed control word (R81), the numbers of operations, widths and signs (R83, R87), and what the decoder
does on fields.
-/

namespace Sys2Proof

open Machine

section packWord
variable (op : BitVec 6) (sg : BitVec 1) (w : BitVec 3) (bits : BitVec 8)

/-- A packed word is its fields side by side. -/
theorem packWord_eq_append : packWord op sg w bits = (0#14 ++ bits ++ w ++ sg ++ op : BitVec 32) := by
  apply BitVec.eq_of_getLsbD_eq
  intro k hk
  simp only [packWord, BitVec.getLsbD_or, BitVec.getLsbD_shiftLeft, BitVec.getLsbD_setWidth, BitVec.getLsbD_append]
  interval_cases k <;> simp

@[simp] theorem opField_packWord : opField (packWord op sg w bits) = op := by
  rw [packWord_eq_append]
  apply BitVec.eq_of_getLsbD_eq
  intro k hk
  simp only [opField, BitVec.getLsbD_extractLsb', BitVec.getLsbD_append]
  interval_cases k <;> simp

@[simp] theorem signField_packWord : signField (packWord op sg w bits) = sg := by
  rw [packWord_eq_append]
  apply BitVec.eq_of_getLsbD_eq
  intro k hk
  simp only [signField, BitVec.getLsbD_extractLsb', BitVec.getLsbD_append]
  interval_cases k; simp

@[simp] theorem widthField_packWord : widthField (packWord op sg w bits) = w := by
  rw [packWord_eq_append]
  apply BitVec.eq_of_getLsbD_eq
  intro k hk
  simp only [widthField, BitVec.getLsbD_extractLsb', BitVec.getLsbD_append]
  interval_cases k <;> simp

@[simp] theorem bitsField_packWord : bitsField (packWord op sg w bits) = bits := by
  rw [packWord_eq_append]
  apply BitVec.eq_of_getLsbD_eq
  intro k hk
  simp only [bitsField, BitVec.getLsbD_extractLsb', BitVec.getLsbD_append]
  interval_cases k <;> simp

@[simp] theorem reservedField_packWord : reservedField (packWord op sg w bits) = 0#14 := by
  rw [packWord_eq_append]
  apply BitVec.eq_of_getLsbD_eq
  intro k hk
  simp only [reservedField, BitVec.getLsbD_extractLsb', BitVec.getLsbD_append]
  interval_cases k <;> simp

/-- The number of a packed word (R81). -/
theorem packWord_toNat : (packWord op sg w bits).toNat = op.toNat + 64 * sg.toNat + 128 * w.toNat + 1024 * bits.toNat := by
  rw [packWord_eq_append]
  simp only [BitVec.toNat_append]
  have := op.isLt; have := sg.isLt; have := w.isLt
  rw [← Nat.shiftLeft_add_eq_or_of_lt (by omega), ← Nat.shiftLeft_add_eq_or_of_lt (by omega), ← Nat.shiftLeft_add_eq_or_of_lt (by omega), ← Nat.shiftLeft_add_eq_or_of_lt (by omega)]
  simp [Nat.shiftLeft_eq]; omega

/-- Under the mask of R88 a control word is its row's match: BITS is left out. -/
theorem packWord_masked (m : BitVec 32) (hm : packWord op sg w 0#8 = m) :
    packWord op sg w bits &&& 0xFFFC03FF#32 = m := by
  rw [← hm, packWord_eq_append, packWord_eq_append]
  apply BitVec.eq_of_getLsbD_eq
  intro k hk
  simp only [BitVec.getLsbD_and, BitVec.getLsbD_append]
  interval_cases k <;> simp

/-- The same for the mask of the 128-only rows, which leaves nothing out. -/
theorem packWord_unmasked (m : BitVec 32) (hm : packWord op sg w bits = m) :
    packWord op sg w bits &&& 0xFFFFFFFF#32 = m := by
  rw [hm]; apply BitVec.eq_of_getLsbD_eq
  intro k hk
  simp only [BitVec.getLsbD_and]
  interval_cases k <;> simp
end packWord

/-- A control word with a zero reserved field is packed from its own fields. -/
theorem packWord_fields {cw : ControlWord} (h : reservedField cw = 0#14) :
    packWord (opField cw) (signField cw) (widthField cw) (bitsField cw) = cw := by
  rw [packWord_eq_append, ← h]
  apply BitVec.eq_of_getLsbD_eq
  intro k hk
  simp only [opField, signField, widthField, bitsField, reservedField, BitVec.getLsbD_extractLsb', BitVec.getLsbD_append]
  interval_cases k <;> simp

@[simp] theorem opOfCode_opCode (op : Op) : opOfCode (opCode op) = some op := by cases op <;> rfl
@[simp] theorem reservedOp_opCode (op : Op) : reservedOp (opCode op) = false := by cases op <;> rfl
@[simp] theorem widthOfCode_widthCode (w : Width) : widthOfCode (widthCode w) = some w := by cases w <;> rfl
@[simp] theorem signOfBit_signBit (sg : Sign) : signOfBit (signBit sg) = sg := by cases sg <;> rfl

theorem opCode_opOfCode {c : BitVec 6} {op : Op} (h : opOfCode c = some op) : opCode op = c := by
  revert h; revert op; revert c; decide
theorem widthCode_widthOfCode {c : BitVec 3} {w : Width} (h : widthOfCode c = some w) : widthCode w = c := by
  revert h; revert w; revert c; decide

/-- The control word of a row from its numbers is the packed word. -/
theorem tableWord_eq_packWord (op : Op) (sg : Sign) (w : Width) (bits : BitVec 8) :
    tableWord (opCode op).toNat sg w bits = packWord (opCode op) (signBit sg) (widthCode w) bits := by
  have hb := bits.isLt
  have ho := (opCode op).isLt
  apply BitVec.eq_of_toNat_eq
  rw [packWord_toNat]
  cases sg <;> cases w <;> simp [tableWord, signBit, widthCode] <;> omega

/-- What the decoder makes of a packed word. -/
theorem decodeFields_packWord (op : Op) (sg : Sign) (w : Width) (bits : BitVec 8) (a b : BitVec 128) :
    decodeFields ⟨packWord (opCode op) (signBit sg) (widthCode w) bits, a, b⟩ =
      if op.only128 && (w != .w128 || bits != 0#8) then .error .illegalEncoding else .ok ⟨op, sg, w, bits, a, b⟩ := by
  simp only [decodeFields, decodeOp, reservedField_packWord, widthField_packWord, opField_packWord, bitsField_packWord,
    signField_packWord, widthOfCode_widthCode, reservedOp_opCode, opOfCode_opCode, signOfBit_signBit]
  by_cases h : (op.only128 && (w != .w128 || bits != 0#8)) = true <;> simp [h]

theorem signBit_signOfBit (c : BitVec 1) : signBit (signOfBit c) = c := by revert c; decide

/-- Everything a control word that decodes must be. -/
theorem decodeFields_ok {r : Request} {f : Fields} (h : decodeFields r = .ok f) :
    r.cw = packWord (opCode f.op) (signBit f.sg) (widthCode f.w) f.bits ∧ r.a = f.a ∧ r.b = f.b ∧
      (f.op.only128 = true → f.w = .w128 ∧ f.bits = 0#8) := by
  unfold decodeFields at h
  split at h
  · cases h
  · rename_i hr
    split at h
    · cases h
    · rename_i w hw
      split at h
      · cases h
      · unfold decodeOp at h
        cases ho : opOfCode (opField r.cw) with
        | none => simp [ho] at h
        | some op =>
          simp only [ho] at h
          by_cases hc : (op.only128 && (w != .w128 || bitsField r.cw != 0#8)) = true
          · simp [hc] at h
          · simp only [hc] at h
            cases h
            refine ⟨?_, rfl, rfl, ?_⟩
            · simp only [opCode_opOfCode ho, widthCode_widthOfCode hw, signBit_signOfBit]
              exact (packWord_fields (not_not.mp hr)).symm
            · intro h128
              simpa [h128] using hc

end Sys2Proof
end

