-- ==== Sys2Proof/Laws/PerInstr.lean ====
section
/-!
SUPPORT. Statements about each instruction as syntax, one lemma per constructor. Family TableRow: the control word of an
instruction matches its own row of spec/opcode_table.json, mask and match as the table gives them (30_encoding.md R88).
-/

namespace Sys2Proof.Laws

/-- The mask of an instruction's row. -/
def rowMask (i : Instr) : ControlWord := if (fieldsOf i).op.only128 then 0xFFFFFFFF#32 else 0xFFFC03FF#32

/-- The match of an instruction's row. -/
def rowMatch : Instr → ControlWord
  | .wrapU8 _ _ => 0x00000000#32
  | .wrapU16 _ _ => 0x00000080#32
  | .wrapU32 _ _ => 0x00000100#32
  | .wrapU64 _ _ => 0x00000180#32
  | .wrapU128 _ _ => 0x00000200#32
  | .wrapI8 _ _ => 0x00000040#32
  | .wrapI16 _ _ => 0x000000C0#32
  | .wrapI32 _ _ => 0x00000140#32
  | .wrapI64 _ _ => 0x000001C0#32
  | .wrapI128 _ _ => 0x00000240#32
  | .notU8 _ _ => 0x00000001#32
  | .notU16 _ _ => 0x00000081#32
  | .notU32 _ _ => 0x00000101#32
  | .notU64 _ _ => 0x00000181#32
  | .notU128 _ _ => 0x00000201#32
  | .notI8 _ _ => 0x00000041#32
  | .notI16 _ _ => 0x000000C1#32
  | .notI32 _ _ => 0x00000141#32
  | .notI64 _ _ => 0x000001C1#32
  | .notI128 _ _ => 0x00000241#32
  | .andU8 _ _ _ => 0x00000002#32
  | .andU16 _ _ _ => 0x00000082#32
  | .andU32 _ _ _ => 0x00000102#32
  | .andU64 _ _ _ => 0x00000182#32
  | .andU128 _ _ _ => 0x00000202#32
  | .andI8 _ _ _ => 0x00000042#32
  | .andI16 _ _ _ => 0x000000C2#32
  | .andI32 _ _ _ => 0x00000142#32
  | .andI64 _ _ _ => 0x000001C2#32
  | .andI128 _ _ _ => 0x00000242#32
  | .orU8 _ _ _ => 0x00000003#32
  | .orU16 _ _ _ => 0x00000083#32
  | .orU32 _ _ _ => 0x00000103#32
  | .orU64 _ _ _ => 0x00000183#32
  | .orU128 _ _ _ => 0x00000203#32
  | .orI8 _ _ _ => 0x00000043#32
  | .orI16 _ _ _ => 0x000000C3#32
  | .orI32 _ _ _ => 0x00000143#32
  | .orI64 _ _ _ => 0x000001C3#32
  | .orI128 _ _ _ => 0x00000243#32
  | .xorU8 _ _ _ => 0x00000004#32
  | .xorU16 _ _ _ => 0x00000084#32
  | .xorU32 _ _ _ => 0x00000104#32
  | .xorU64 _ _ _ => 0x00000184#32
  | .xorU128 _ _ _ => 0x00000204#32
  | .xorI8 _ _ _ => 0x00000044#32
  | .xorI16 _ _ _ => 0x000000C4#32
  | .xorI32 _ _ _ => 0x00000144#32
  | .xorI64 _ _ _ => 0x000001C4#32
  | .xorI128 _ _ _ => 0x00000244#32
  | .shlU8 _ _ _ => 0x00000005#32
  | .shlU16 _ _ _ => 0x00000085#32
  | .shlU32 _ _ _ => 0x00000105#32
  | .shlU64 _ _ _ => 0x00000185#32
  | .shlU128 _ _ _ => 0x00000205#32
  | .shlI8 _ _ _ => 0x00000045#32
  | .shlI16 _ _ _ => 0x000000C5#32
  | .shlI32 _ _ _ => 0x00000145#32
  | .shlI64 _ _ _ => 0x000001C5#32
  | .shlI128 _ _ _ => 0x00000245#32
  | .shrU8 _ _ _ => 0x00000006#32
  | .shrU16 _ _ _ => 0x00000086#32
  | .shrU32 _ _ _ => 0x00000106#32
  | .shrU64 _ _ _ => 0x00000186#32
  | .shrU128 _ _ _ => 0x00000206#32
  | .shrI8 _ _ _ => 0x00000046#32
  | .shrI16 _ _ _ => 0x000000C6#32
  | .shrI32 _ _ _ => 0x00000146#32
  | .shrI64 _ _ _ => 0x000001C6#32
  | .shrI128 _ _ _ => 0x00000246#32
  | .addwU8 _ _ _ => 0x00000008#32
  | .addwU16 _ _ _ => 0x00000088#32
  | .addwU32 _ _ _ => 0x00000108#32
  | .addwU64 _ _ _ => 0x00000188#32
  | .addwU128 _ _ _ => 0x00000208#32
  | .addwI8 _ _ _ => 0x00000048#32
  | .addwI16 _ _ _ => 0x000000C8#32
  | .addwI32 _ _ _ => 0x00000148#32
  | .addwI64 _ _ _ => 0x000001C8#32
  | .addwI128 _ _ _ => 0x00000248#32
  | .subwU8 _ _ _ => 0x00000009#32
  | .subwU16 _ _ _ => 0x00000089#32
  | .subwU32 _ _ _ => 0x00000109#32
  | .subwU64 _ _ _ => 0x00000189#32
  | .subwU128 _ _ _ => 0x00000209#32
  | .subwI8 _ _ _ => 0x00000049#32
  | .subwI16 _ _ _ => 0x000000C9#32
  | .subwI32 _ _ _ => 0x00000149#32
  | .subwI64 _ _ _ => 0x000001C9#32
  | .subwI128 _ _ _ => 0x00000249#32
  | .mulwU8 _ _ _ => 0x0000000A#32
  | .mulwU16 _ _ _ => 0x0000008A#32
  | .mulwU32 _ _ _ => 0x0000010A#32
  | .mulwU64 _ _ _ => 0x0000018A#32
  | .mulwU128 _ _ _ => 0x0000020A#32
  | .mulwI8 _ _ _ => 0x0000004A#32
  | .mulwI16 _ _ _ => 0x000000CA#32
  | .mulwI32 _ _ _ => 0x0000014A#32
  | .mulwI64 _ _ _ => 0x000001CA#32
  | .mulwI128 _ _ _ => 0x0000024A#32
  | .addoU8 _ _ _ => 0x0000000C#32
  | .addoU16 _ _ _ => 0x0000008C#32
  | .addoU32 _ _ _ => 0x0000010C#32
  | .addoU64 _ _ _ => 0x0000018C#32
  | .addoU128 _ _ _ => 0x0000020C#32
  | .addoI8 _ _ _ => 0x0000004C#32
  | .addoI16 _ _ _ => 0x000000CC#32
  | .addoI32 _ _ _ => 0x0000014C#32
  | .addoI64 _ _ _ => 0x000001CC#32
  | .addoI128 _ _ _ => 0x0000024C#32
  | .suboU8 _ _ _ => 0x0000000D#32
  | .suboU16 _ _ _ => 0x0000008D#32
  | .suboU32 _ _ _ => 0x0000010D#32
  | .suboU64 _ _ _ => 0x0000018D#32
  | .suboU128 _ _ _ => 0x0000020D#32
  | .suboI8 _ _ _ => 0x0000004D#32
  | .suboI16 _ _ _ => 0x000000CD#32
  | .suboI32 _ _ _ => 0x0000014D#32
  | .suboI64 _ _ _ => 0x000001CD#32
  | .suboI128 _ _ _ => 0x0000024D#32
  | .muloU8 _ _ _ => 0x0000000E#32
  | .muloU16 _ _ _ => 0x0000008E#32
  | .muloU32 _ _ _ => 0x0000010E#32
  | .muloU64 _ _ _ => 0x0000018E#32
  | .muloU128 _ _ _ => 0x0000020E#32
  | .muloI8 _ _ _ => 0x0000004E#32
  | .muloI16 _ _ _ => 0x000000CE#32
  | .muloI32 _ _ _ => 0x0000014E#32
  | .muloI64 _ _ _ => 0x000001CE#32
  | .muloI128 _ _ _ => 0x0000024E#32
  | .addsU8 _ _ _ => 0x00000010#32
  | .addsU16 _ _ _ => 0x00000090#32
  | .addsU32 _ _ _ => 0x00000110#32
  | .addsU64 _ _ _ => 0x00000190#32
  | .addsU128 _ _ _ => 0x00000210#32
  | .addsI8 _ _ _ => 0x00000050#32
  | .addsI16 _ _ _ => 0x000000D0#32
  | .addsI32 _ _ _ => 0x00000150#32
  | .addsI64 _ _ _ => 0x000001D0#32
  | .addsI128 _ _ _ => 0x00000250#32
  | .subsU8 _ _ _ => 0x00000011#32
  | .subsU16 _ _ _ => 0x00000091#32
  | .subsU32 _ _ _ => 0x00000111#32
  | .subsU64 _ _ _ => 0x00000191#32
  | .subsU128 _ _ _ => 0x00000211#32
  | .subsI8 _ _ _ => 0x00000051#32
  | .subsI16 _ _ _ => 0x000000D1#32
  | .subsI32 _ _ _ => 0x00000151#32
  | .subsI64 _ _ _ => 0x000001D1#32
  | .subsI128 _ _ _ => 0x00000251#32
  | .mulsU8 _ _ _ => 0x00000012#32
  | .mulsU16 _ _ _ => 0x00000092#32
  | .mulsU32 _ _ _ => 0x00000112#32
  | .mulsU64 _ _ _ => 0x00000192#32
  | .mulsU128 _ _ _ => 0x00000212#32
  | .mulsI8 _ _ _ => 0x00000052#32
  | .mulsI16 _ _ _ => 0x000000D2#32
  | .mulsI32 _ _ _ => 0x00000152#32
  | .mulsI64 _ _ _ => 0x000001D2#32
  | .mulsI128 _ _ _ => 0x00000252#32
  | .divTruncU8 _ _ _ => 0x00000014#32
  | .divTruncU16 _ _ _ => 0x00000094#32
  | .divTruncU32 _ _ _ => 0x00000114#32
  | .divTruncU64 _ _ _ => 0x00000194#32
  | .divTruncU128 _ _ _ => 0x00000214#32
  | .divTruncI8 _ _ _ => 0x00000054#32
  | .divTruncI16 _ _ _ => 0x000000D4#32
  | .divTruncI32 _ _ _ => 0x00000154#32
  | .divTruncI64 _ _ _ => 0x000001D4#32
  | .divTruncI128 _ _ _ => 0x00000254#32
  | .remU8 _ _ _ => 0x00000015#32
  | .remU16 _ _ _ => 0x00000095#32
  | .remU32 _ _ _ => 0x00000115#32
  | .remU64 _ _ _ => 0x00000195#32
  | .remU128 _ _ _ => 0x00000215#32
  | .remI8 _ _ _ => 0x00000055#32
  | .remI16 _ _ _ => 0x000000D5#32
  | .remI32 _ _ _ => 0x00000155#32
  | .remI64 _ _ _ => 0x000001D5#32
  | .remI128 _ _ _ => 0x00000255#32
  | .divFloorU8 _ _ _ => 0x00000016#32
  | .divFloorU16 _ _ _ => 0x00000096#32
  | .divFloorU32 _ _ _ => 0x00000116#32
  | .divFloorU64 _ _ _ => 0x00000196#32
  | .divFloorU128 _ _ _ => 0x00000216#32
  | .divFloorI8 _ _ _ => 0x00000056#32
  | .divFloorI16 _ _ _ => 0x000000D6#32
  | .divFloorI32 _ _ _ => 0x00000156#32
  | .divFloorI64 _ _ _ => 0x000001D6#32
  | .divFloorI128 _ _ _ => 0x00000256#32
  | .modU8 _ _ _ => 0x00000017#32
  | .modU16 _ _ _ => 0x00000097#32
  | .modU32 _ _ _ => 0x00000117#32
  | .modU64 _ _ _ => 0x00000197#32
  | .modU128 _ _ _ => 0x00000217#32
  | .modI8 _ _ _ => 0x00000057#32
  | .modI16 _ _ _ => 0x000000D7#32
  | .modI32 _ _ _ => 0x00000157#32
  | .modI64 _ _ _ => 0x000001D7#32
  | .modI128 _ _ _ => 0x00000257#32
  | .clzU8 _ _ => 0x00000018#32
  | .clzU16 _ _ => 0x00000098#32
  | .clzU32 _ _ => 0x00000118#32
  | .clzU64 _ _ => 0x00000198#32
  | .clzU128 _ _ => 0x00000218#32
  | .clzI8 _ _ => 0x00000058#32
  | .clzI16 _ _ => 0x000000D8#32
  | .clzI32 _ _ => 0x00000158#32
  | .clzI64 _ _ => 0x000001D8#32
  | .clzI128 _ _ => 0x00000258#32
  | .ctzU8 _ _ => 0x00000019#32
  | .ctzU16 _ _ => 0x00000099#32
  | .ctzU32 _ _ => 0x00000119#32
  | .ctzU64 _ _ => 0x00000199#32
  | .ctzU128 _ _ => 0x00000219#32
  | .ctzI8 _ _ => 0x00000059#32
  | .ctzI16 _ _ => 0x000000D9#32
  | .ctzI32 _ _ => 0x00000159#32
  | .ctzI64 _ _ => 0x000001D9#32
  | .ctzI128 _ _ => 0x00000259#32
  | .popcountU8 _ _ => 0x0000001A#32
  | .popcountU16 _ _ => 0x0000009A#32
  | .popcountU32 _ _ => 0x0000011A#32
  | .popcountU64 _ _ => 0x0000019A#32
  | .popcountU128 _ _ => 0x0000021A#32
  | .popcountI8 _ _ => 0x0000005A#32
  | .popcountI16 _ _ => 0x000000DA#32
  | .popcountI32 _ _ => 0x0000015A#32
  | .popcountI64 _ _ => 0x000001DA#32
  | .popcountI128 _ _ => 0x0000025A#32
  | .byteswapU8 _ _ => 0x0000001B#32
  | .byteswapU16 _ _ => 0x0000009B#32
  | .byteswapU32 _ _ => 0x0000011B#32
  | .byteswapU64 _ _ => 0x0000019B#32
  | .byteswapU128 _ _ => 0x0000021B#32
  | .byteswapI8 _ _ => 0x0000005B#32
  | .byteswapI16 _ _ => 0x000000DB#32
  | .byteswapI32 _ _ => 0x0000015B#32
  | .byteswapI64 _ _ => 0x000001DB#32
  | .byteswapI128 _ _ => 0x0000025B#32
  | .bitreverseU8 _ _ => 0x0000001C#32
  | .bitreverseU16 _ _ => 0x0000009C#32
  | .bitreverseU32 _ _ => 0x0000011C#32
  | .bitreverseU64 _ _ => 0x0000019C#32
  | .bitreverseU128 _ _ => 0x0000021C#32
  | .bitreverseI8 _ _ => 0x0000005C#32
  | .bitreverseI16 _ _ => 0x000000DC#32
  | .bitreverseI32 _ _ => 0x0000015C#32
  | .bitreverseI64 _ _ => 0x000001DC#32
  | .bitreverseI128 _ _ => 0x0000025C#32
  | .makeU128 _ _ => 0x00000220#32
  | .makeI128 _ _ => 0x00000260#32
  | .hiU128 _ => 0x00000221#32
  | .hiI128 _ => 0x00000261#32
  | .loU128 _ => 0x00000222#32
  | .loI128 _ => 0x00000262#32
  | .cmpU128 _ _ => 0x00000223#32
  | .cmpI128 _ _ => 0x00000263#32

/-- The control word of an instruction matches its row. -/
def TableRow.Statement (i : Instr) : Prop := (encode i).cw &&& rowMask i = rowMatch i

theorem TableRow.wrapU8 (bits : BitVec 8) (a : BitVec 8) : TableRow.Statement (.wrapU8 bits a) :=
  packWord_masked 0x00#6 0#1 0#3 bits 0x00000000#32 (by decide)

theorem TableRow.wrapU16 (bits : BitVec 8) (a : BitVec 16) : TableRow.Statement (.wrapU16 bits a) :=
  packWord_masked 0x00#6 0#1 1#3 bits 0x00000080#32 (by decide)

theorem TableRow.wrapU32 (bits : BitVec 8) (a : BitVec 32) : TableRow.Statement (.wrapU32 bits a) :=
  packWord_masked 0x00#6 0#1 2#3 bits 0x00000100#32 (by decide)

theorem TableRow.wrapU64 (bits : BitVec 8) (a : BitVec 64) : TableRow.Statement (.wrapU64 bits a) :=
  packWord_masked 0x00#6 0#1 3#3 bits 0x00000180#32 (by decide)

theorem TableRow.wrapU128 (bits : BitVec 8) (a : BitVec 128) : TableRow.Statement (.wrapU128 bits a) :=
  packWord_masked 0x00#6 0#1 4#3 bits 0x00000200#32 (by decide)

theorem TableRow.wrapI8 (bits : BitVec 8) (a : BitVec 8) : TableRow.Statement (.wrapI8 bits a) :=
  packWord_masked 0x00#6 1#1 0#3 bits 0x00000040#32 (by decide)

theorem TableRow.wrapI16 (bits : BitVec 8) (a : BitVec 16) : TableRow.Statement (.wrapI16 bits a) :=
  packWord_masked 0x00#6 1#1 1#3 bits 0x000000C0#32 (by decide)

theorem TableRow.wrapI32 (bits : BitVec 8) (a : BitVec 32) : TableRow.Statement (.wrapI32 bits a) :=
  packWord_masked 0x00#6 1#1 2#3 bits 0x00000140#32 (by decide)

theorem TableRow.wrapI64 (bits : BitVec 8) (a : BitVec 64) : TableRow.Statement (.wrapI64 bits a) :=
  packWord_masked 0x00#6 1#1 3#3 bits 0x000001C0#32 (by decide)

theorem TableRow.wrapI128 (bits : BitVec 8) (a : BitVec 128) : TableRow.Statement (.wrapI128 bits a) :=
  packWord_masked 0x00#6 1#1 4#3 bits 0x00000240#32 (by decide)

theorem TableRow.notU8 (bits : BitVec 8) (a : BitVec 8) : TableRow.Statement (.notU8 bits a) :=
  packWord_masked 0x01#6 0#1 0#3 bits 0x00000001#32 (by decide)

theorem TableRow.notU16 (bits : BitVec 8) (a : BitVec 16) : TableRow.Statement (.notU16 bits a) :=
  packWord_masked 0x01#6 0#1 1#3 bits 0x00000081#32 (by decide)

theorem TableRow.notU32 (bits : BitVec 8) (a : BitVec 32) : TableRow.Statement (.notU32 bits a) :=
  packWord_masked 0x01#6 0#1 2#3 bits 0x00000101#32 (by decide)

theorem TableRow.notU64 (bits : BitVec 8) (a : BitVec 64) : TableRow.Statement (.notU64 bits a) :=
  packWord_masked 0x01#6 0#1 3#3 bits 0x00000181#32 (by decide)

theorem TableRow.notU128 (bits : BitVec 8) (a : BitVec 128) : TableRow.Statement (.notU128 bits a) :=
  packWord_masked 0x01#6 0#1 4#3 bits 0x00000201#32 (by decide)

theorem TableRow.notI8 (bits : BitVec 8) (a : BitVec 8) : TableRow.Statement (.notI8 bits a) :=
  packWord_masked 0x01#6 1#1 0#3 bits 0x00000041#32 (by decide)

theorem TableRow.notI16 (bits : BitVec 8) (a : BitVec 16) : TableRow.Statement (.notI16 bits a) :=
  packWord_masked 0x01#6 1#1 1#3 bits 0x000000C1#32 (by decide)

theorem TableRow.notI32 (bits : BitVec 8) (a : BitVec 32) : TableRow.Statement (.notI32 bits a) :=
  packWord_masked 0x01#6 1#1 2#3 bits 0x00000141#32 (by decide)

theorem TableRow.notI64 (bits : BitVec 8) (a : BitVec 64) : TableRow.Statement (.notI64 bits a) :=
  packWord_masked 0x01#6 1#1 3#3 bits 0x000001C1#32 (by decide)

theorem TableRow.notI128 (bits : BitVec 8) (a : BitVec 128) : TableRow.Statement (.notI128 bits a) :=
  packWord_masked 0x01#6 1#1 4#3 bits 0x00000241#32 (by decide)

theorem TableRow.andU8 (bits : BitVec 8) (a b : BitVec 8) : TableRow.Statement (.andU8 bits a b) :=
  packWord_masked 0x02#6 0#1 0#3 bits 0x00000002#32 (by decide)

theorem TableRow.andU16 (bits : BitVec 8) (a b : BitVec 16) : TableRow.Statement (.andU16 bits a b) :=
  packWord_masked 0x02#6 0#1 1#3 bits 0x00000082#32 (by decide)

theorem TableRow.andU32 (bits : BitVec 8) (a b : BitVec 32) : TableRow.Statement (.andU32 bits a b) :=
  packWord_masked 0x02#6 0#1 2#3 bits 0x00000102#32 (by decide)

theorem TableRow.andU64 (bits : BitVec 8) (a b : BitVec 64) : TableRow.Statement (.andU64 bits a b) :=
  packWord_masked 0x02#6 0#1 3#3 bits 0x00000182#32 (by decide)

theorem TableRow.andU128 (bits : BitVec 8) (a b : BitVec 128) : TableRow.Statement (.andU128 bits a b) :=
  packWord_masked 0x02#6 0#1 4#3 bits 0x00000202#32 (by decide)

theorem TableRow.andI8 (bits : BitVec 8) (a b : BitVec 8) : TableRow.Statement (.andI8 bits a b) :=
  packWord_masked 0x02#6 1#1 0#3 bits 0x00000042#32 (by decide)

theorem TableRow.andI16 (bits : BitVec 8) (a b : BitVec 16) : TableRow.Statement (.andI16 bits a b) :=
  packWord_masked 0x02#6 1#1 1#3 bits 0x000000C2#32 (by decide)

theorem TableRow.andI32 (bits : BitVec 8) (a b : BitVec 32) : TableRow.Statement (.andI32 bits a b) :=
  packWord_masked 0x02#6 1#1 2#3 bits 0x00000142#32 (by decide)

theorem TableRow.andI64 (bits : BitVec 8) (a b : BitVec 64) : TableRow.Statement (.andI64 bits a b) :=
  packWord_masked 0x02#6 1#1 3#3 bits 0x000001C2#32 (by decide)

theorem TableRow.andI128 (bits : BitVec 8) (a b : BitVec 128) : TableRow.Statement (.andI128 bits a b) :=
  packWord_masked 0x02#6 1#1 4#3 bits 0x00000242#32 (by decide)

theorem TableRow.orU8 (bits : BitVec 8) (a b : BitVec 8) : TableRow.Statement (.orU8 bits a b) :=
  packWord_masked 0x03#6 0#1 0#3 bits 0x00000003#32 (by decide)

theorem TableRow.orU16 (bits : BitVec 8) (a b : BitVec 16) : TableRow.Statement (.orU16 bits a b) :=
  packWord_masked 0x03#6 0#1 1#3 bits 0x00000083#32 (by decide)

theorem TableRow.orU32 (bits : BitVec 8) (a b : BitVec 32) : TableRow.Statement (.orU32 bits a b) :=
  packWord_masked 0x03#6 0#1 2#3 bits 0x00000103#32 (by decide)

theorem TableRow.orU64 (bits : BitVec 8) (a b : BitVec 64) : TableRow.Statement (.orU64 bits a b) :=
  packWord_masked 0x03#6 0#1 3#3 bits 0x00000183#32 (by decide)

theorem TableRow.orU128 (bits : BitVec 8) (a b : BitVec 128) : TableRow.Statement (.orU128 bits a b) :=
  packWord_masked 0x03#6 0#1 4#3 bits 0x00000203#32 (by decide)

theorem TableRow.orI8 (bits : BitVec 8) (a b : BitVec 8) : TableRow.Statement (.orI8 bits a b) :=
  packWord_masked 0x03#6 1#1 0#3 bits 0x00000043#32 (by decide)

theorem TableRow.orI16 (bits : BitVec 8) (a b : BitVec 16) : TableRow.Statement (.orI16 bits a b) :=
  packWord_masked 0x03#6 1#1 1#3 bits 0x000000C3#32 (by decide)

theorem TableRow.orI32 (bits : BitVec 8) (a b : BitVec 32) : TableRow.Statement (.orI32 bits a b) :=
  packWord_masked 0x03#6 1#1 2#3 bits 0x00000143#32 (by decide)

theorem TableRow.orI64 (bits : BitVec 8) (a b : BitVec 64) : TableRow.Statement (.orI64 bits a b) :=
  packWord_masked 0x03#6 1#1 3#3 bits 0x000001C3#32 (by decide)

theorem TableRow.orI128 (bits : BitVec 8) (a b : BitVec 128) : TableRow.Statement (.orI128 bits a b) :=
  packWord_masked 0x03#6 1#1 4#3 bits 0x00000243#32 (by decide)

theorem TableRow.xorU8 (bits : BitVec 8) (a b : BitVec 8) : TableRow.Statement (.xorU8 bits a b) :=
  packWord_masked 0x04#6 0#1 0#3 bits 0x00000004#32 (by decide)

theorem TableRow.xorU16 (bits : BitVec 8) (a b : BitVec 16) : TableRow.Statement (.xorU16 bits a b) :=
  packWord_masked 0x04#6 0#1 1#3 bits 0x00000084#32 (by decide)

theorem TableRow.xorU32 (bits : BitVec 8) (a b : BitVec 32) : TableRow.Statement (.xorU32 bits a b) :=
  packWord_masked 0x04#6 0#1 2#3 bits 0x00000104#32 (by decide)

theorem TableRow.xorU64 (bits : BitVec 8) (a b : BitVec 64) : TableRow.Statement (.xorU64 bits a b) :=
  packWord_masked 0x04#6 0#1 3#3 bits 0x00000184#32 (by decide)

theorem TableRow.xorU128 (bits : BitVec 8) (a b : BitVec 128) : TableRow.Statement (.xorU128 bits a b) :=
  packWord_masked 0x04#6 0#1 4#3 bits 0x00000204#32 (by decide)

theorem TableRow.xorI8 (bits : BitVec 8) (a b : BitVec 8) : TableRow.Statement (.xorI8 bits a b) :=
  packWord_masked 0x04#6 1#1 0#3 bits 0x00000044#32 (by decide)

theorem TableRow.xorI16 (bits : BitVec 8) (a b : BitVec 16) : TableRow.Statement (.xorI16 bits a b) :=
  packWord_masked 0x04#6 1#1 1#3 bits 0x000000C4#32 (by decide)

theorem TableRow.xorI32 (bits : BitVec 8) (a b : BitVec 32) : TableRow.Statement (.xorI32 bits a b) :=
  packWord_masked 0x04#6 1#1 2#3 bits 0x00000144#32 (by decide)

theorem TableRow.xorI64 (bits : BitVec 8) (a b : BitVec 64) : TableRow.Statement (.xorI64 bits a b) :=
  packWord_masked 0x04#6 1#1 3#3 bits 0x000001C4#32 (by decide)

theorem TableRow.xorI128 (bits : BitVec 8) (a b : BitVec 128) : TableRow.Statement (.xorI128 bits a b) :=
  packWord_masked 0x04#6 1#1 4#3 bits 0x00000244#32 (by decide)

theorem TableRow.shlU8 (bits : BitVec 8) (a : BitVec 8) (b : BitVec 8) : TableRow.Statement (.shlU8 bits a b) :=
  packWord_masked 0x05#6 0#1 0#3 bits 0x00000005#32 (by decide)

theorem TableRow.shlU16 (bits : BitVec 8) (a : BitVec 16) (b : BitVec 8) : TableRow.Statement (.shlU16 bits a b) :=
  packWord_masked 0x05#6 0#1 1#3 bits 0x00000085#32 (by decide)

theorem TableRow.shlU32 (bits : BitVec 8) (a : BitVec 32) (b : BitVec 8) : TableRow.Statement (.shlU32 bits a b) :=
  packWord_masked 0x05#6 0#1 2#3 bits 0x00000105#32 (by decide)

theorem TableRow.shlU64 (bits : BitVec 8) (a : BitVec 64) (b : BitVec 8) : TableRow.Statement (.shlU64 bits a b) :=
  packWord_masked 0x05#6 0#1 3#3 bits 0x00000185#32 (by decide)

theorem TableRow.shlU128 (bits : BitVec 8) (a : BitVec 128) (b : BitVec 8) : TableRow.Statement (.shlU128 bits a b) :=
  packWord_masked 0x05#6 0#1 4#3 bits 0x00000205#32 (by decide)

theorem TableRow.shlI8 (bits : BitVec 8) (a : BitVec 8) (b : BitVec 8) : TableRow.Statement (.shlI8 bits a b) :=
  packWord_masked 0x05#6 1#1 0#3 bits 0x00000045#32 (by decide)

theorem TableRow.shlI16 (bits : BitVec 8) (a : BitVec 16) (b : BitVec 8) : TableRow.Statement (.shlI16 bits a b) :=
  packWord_masked 0x05#6 1#1 1#3 bits 0x000000C5#32 (by decide)

theorem TableRow.shlI32 (bits : BitVec 8) (a : BitVec 32) (b : BitVec 8) : TableRow.Statement (.shlI32 bits a b) :=
  packWord_masked 0x05#6 1#1 2#3 bits 0x00000145#32 (by decide)

theorem TableRow.shlI64 (bits : BitVec 8) (a : BitVec 64) (b : BitVec 8) : TableRow.Statement (.shlI64 bits a b) :=
  packWord_masked 0x05#6 1#1 3#3 bits 0x000001C5#32 (by decide)

theorem TableRow.shlI128 (bits : BitVec 8) (a : BitVec 128) (b : BitVec 8) : TableRow.Statement (.shlI128 bits a b) :=
  packWord_masked 0x05#6 1#1 4#3 bits 0x00000245#32 (by decide)

theorem TableRow.shrU8 (bits : BitVec 8) (a : BitVec 8) (b : BitVec 8) : TableRow.Statement (.shrU8 bits a b) :=
  packWord_masked 0x06#6 0#1 0#3 bits 0x00000006#32 (by decide)

theorem TableRow.shrU16 (bits : BitVec 8) (a : BitVec 16) (b : BitVec 8) : TableRow.Statement (.shrU16 bits a b) :=
  packWord_masked 0x06#6 0#1 1#3 bits 0x00000086#32 (by decide)

theorem TableRow.shrU32 (bits : BitVec 8) (a : BitVec 32) (b : BitVec 8) : TableRow.Statement (.shrU32 bits a b) :=
  packWord_masked 0x06#6 0#1 2#3 bits 0x00000106#32 (by decide)

theorem TableRow.shrU64 (bits : BitVec 8) (a : BitVec 64) (b : BitVec 8) : TableRow.Statement (.shrU64 bits a b) :=
  packWord_masked 0x06#6 0#1 3#3 bits 0x00000186#32 (by decide)

theorem TableRow.shrU128 (bits : BitVec 8) (a : BitVec 128) (b : BitVec 8) : TableRow.Statement (.shrU128 bits a b) :=
  packWord_masked 0x06#6 0#1 4#3 bits 0x00000206#32 (by decide)

theorem TableRow.shrI8 (bits : BitVec 8) (a : BitVec 8) (b : BitVec 8) : TableRow.Statement (.shrI8 bits a b) :=
  packWord_masked 0x06#6 1#1 0#3 bits 0x00000046#32 (by decide)

theorem TableRow.shrI16 (bits : BitVec 8) (a : BitVec 16) (b : BitVec 8) : TableRow.Statement (.shrI16 bits a b) :=
  packWord_masked 0x06#6 1#1 1#3 bits 0x000000C6#32 (by decide)

theorem TableRow.shrI32 (bits : BitVec 8) (a : BitVec 32) (b : BitVec 8) : TableRow.Statement (.shrI32 bits a b) :=
  packWord_masked 0x06#6 1#1 2#3 bits 0x00000146#32 (by decide)

theorem TableRow.shrI64 (bits : BitVec 8) (a : BitVec 64) (b : BitVec 8) : TableRow.Statement (.shrI64 bits a b) :=
  packWord_masked 0x06#6 1#1 3#3 bits 0x000001C6#32 (by decide)

theorem TableRow.shrI128 (bits : BitVec 8) (a : BitVec 128) (b : BitVec 8) : TableRow.Statement (.shrI128 bits a b) :=
  packWord_masked 0x06#6 1#1 4#3 bits 0x00000246#32 (by decide)

theorem TableRow.addwU8 (bits : BitVec 8) (a b : BitVec 8) : TableRow.Statement (.addwU8 bits a b) :=
  packWord_masked 0x08#6 0#1 0#3 bits 0x00000008#32 (by decide)

theorem TableRow.addwU16 (bits : BitVec 8) (a b : BitVec 16) : TableRow.Statement (.addwU16 bits a b) :=
  packWord_masked 0x08#6 0#1 1#3 bits 0x00000088#32 (by decide)

theorem TableRow.addwU32 (bits : BitVec 8) (a b : BitVec 32) : TableRow.Statement (.addwU32 bits a b) :=
  packWord_masked 0x08#6 0#1 2#3 bits 0x00000108#32 (by decide)

theorem TableRow.addwU64 (bits : BitVec 8) (a b : BitVec 64) : TableRow.Statement (.addwU64 bits a b) :=
  packWord_masked 0x08#6 0#1 3#3 bits 0x00000188#32 (by decide)

theorem TableRow.addwU128 (bits : BitVec 8) (a b : BitVec 128) : TableRow.Statement (.addwU128 bits a b) :=
  packWord_masked 0x08#6 0#1 4#3 bits 0x00000208#32 (by decide)

theorem TableRow.addwI8 (bits : BitVec 8) (a b : BitVec 8) : TableRow.Statement (.addwI8 bits a b) :=
  packWord_masked 0x08#6 1#1 0#3 bits 0x00000048#32 (by decide)

theorem TableRow.addwI16 (bits : BitVec 8) (a b : BitVec 16) : TableRow.Statement (.addwI16 bits a b) :=
  packWord_masked 0x08#6 1#1 1#3 bits 0x000000C8#32 (by decide)

theorem TableRow.addwI32 (bits : BitVec 8) (a b : BitVec 32) : TableRow.Statement (.addwI32 bits a b) :=
  packWord_masked 0x08#6 1#1 2#3 bits 0x00000148#32 (by decide)

theorem TableRow.addwI64 (bits : BitVec 8) (a b : BitVec 64) : TableRow.Statement (.addwI64 bits a b) :=
  packWord_masked 0x08#6 1#1 3#3 bits 0x000001C8#32 (by decide)

theorem TableRow.addwI128 (bits : BitVec 8) (a b : BitVec 128) : TableRow.Statement (.addwI128 bits a b) :=
  packWord_masked 0x08#6 1#1 4#3 bits 0x00000248#32 (by decide)

theorem TableRow.subwU8 (bits : BitVec 8) (a b : BitVec 8) : TableRow.Statement (.subwU8 bits a b) :=
  packWord_masked 0x09#6 0#1 0#3 bits 0x00000009#32 (by decide)

theorem TableRow.subwU16 (bits : BitVec 8) (a b : BitVec 16) : TableRow.Statement (.subwU16 bits a b) :=
  packWord_masked 0x09#6 0#1 1#3 bits 0x00000089#32 (by decide)

theorem TableRow.subwU32 (bits : BitVec 8) (a b : BitVec 32) : TableRow.Statement (.subwU32 bits a b) :=
  packWord_masked 0x09#6 0#1 2#3 bits 0x00000109#32 (by decide)

theorem TableRow.subwU64 (bits : BitVec 8) (a b : BitVec 64) : TableRow.Statement (.subwU64 bits a b) :=
  packWord_masked 0x09#6 0#1 3#3 bits 0x00000189#32 (by decide)

theorem TableRow.subwU128 (bits : BitVec 8) (a b : BitVec 128) : TableRow.Statement (.subwU128 bits a b) :=
  packWord_masked 0x09#6 0#1 4#3 bits 0x00000209#32 (by decide)

theorem TableRow.subwI8 (bits : BitVec 8) (a b : BitVec 8) : TableRow.Statement (.subwI8 bits a b) :=
  packWord_masked 0x09#6 1#1 0#3 bits 0x00000049#32 (by decide)

theorem TableRow.subwI16 (bits : BitVec 8) (a b : BitVec 16) : TableRow.Statement (.subwI16 bits a b) :=
  packWord_masked 0x09#6 1#1 1#3 bits 0x000000C9#32 (by decide)

theorem TableRow.subwI32 (bits : BitVec 8) (a b : BitVec 32) : TableRow.Statement (.subwI32 bits a b) :=
  packWord_masked 0x09#6 1#1 2#3 bits 0x00000149#32 (by decide)

theorem TableRow.subwI64 (bits : BitVec 8) (a b : BitVec 64) : TableRow.Statement (.subwI64 bits a b) :=
  packWord_masked 0x09#6 1#1 3#3 bits 0x000001C9#32 (by decide)

theorem TableRow.subwI128 (bits : BitVec 8) (a b : BitVec 128) : TableRow.Statement (.subwI128 bits a b) :=
  packWord_masked 0x09#6 1#1 4#3 bits 0x00000249#32 (by decide)

theorem TableRow.mulwU8 (bits : BitVec 8) (a b : BitVec 8) : TableRow.Statement (.mulwU8 bits a b) :=
  packWord_masked 0x0A#6 0#1 0#3 bits 0x0000000A#32 (by decide)

theorem TableRow.mulwU16 (bits : BitVec 8) (a b : BitVec 16) : TableRow.Statement (.mulwU16 bits a b) :=
  packWord_masked 0x0A#6 0#1 1#3 bits 0x0000008A#32 (by decide)

theorem TableRow.mulwU32 (bits : BitVec 8) (a b : BitVec 32) : TableRow.Statement (.mulwU32 bits a b) :=
  packWord_masked 0x0A#6 0#1 2#3 bits 0x0000010A#32 (by decide)

theorem TableRow.mulwU64 (bits : BitVec 8) (a b : BitVec 64) : TableRow.Statement (.mulwU64 bits a b) :=
  packWord_masked 0x0A#6 0#1 3#3 bits 0x0000018A#32 (by decide)

theorem TableRow.mulwU128 (bits : BitVec 8) (a b : BitVec 128) : TableRow.Statement (.mulwU128 bits a b) :=
  packWord_masked 0x0A#6 0#1 4#3 bits 0x0000020A#32 (by decide)

theorem TableRow.mulwI8 (bits : BitVec 8) (a b : BitVec 8) : TableRow.Statement (.mulwI8 bits a b) :=
  packWord_masked 0x0A#6 1#1 0#3 bits 0x0000004A#32 (by decide)

theorem TableRow.mulwI16 (bits : BitVec 8) (a b : BitVec 16) : TableRow.Statement (.mulwI16 bits a b) :=
  packWord_masked 0x0A#6 1#1 1#3 bits 0x000000CA#32 (by decide)

theorem TableRow.mulwI32 (bits : BitVec 8) (a b : BitVec 32) : TableRow.Statement (.mulwI32 bits a b) :=
  packWord_masked 0x0A#6 1#1 2#3 bits 0x0000014A#32 (by decide)

theorem TableRow.mulwI64 (bits : BitVec 8) (a b : BitVec 64) : TableRow.Statement (.mulwI64 bits a b) :=
  packWord_masked 0x0A#6 1#1 3#3 bits 0x000001CA#32 (by decide)

theorem TableRow.mulwI128 (bits : BitVec 8) (a b : BitVec 128) : TableRow.Statement (.mulwI128 bits a b) :=
  packWord_masked 0x0A#6 1#1 4#3 bits 0x0000024A#32 (by decide)

theorem TableRow.addoU8 (bits : BitVec 8) (a b : BitVec 8) : TableRow.Statement (.addoU8 bits a b) :=
  packWord_masked 0x0C#6 0#1 0#3 bits 0x0000000C#32 (by decide)

theorem TableRow.addoU16 (bits : BitVec 8) (a b : BitVec 16) : TableRow.Statement (.addoU16 bits a b) :=
  packWord_masked 0x0C#6 0#1 1#3 bits 0x0000008C#32 (by decide)

theorem TableRow.addoU32 (bits : BitVec 8) (a b : BitVec 32) : TableRow.Statement (.addoU32 bits a b) :=
  packWord_masked 0x0C#6 0#1 2#3 bits 0x0000010C#32 (by decide)

theorem TableRow.addoU64 (bits : BitVec 8) (a b : BitVec 64) : TableRow.Statement (.addoU64 bits a b) :=
  packWord_masked 0x0C#6 0#1 3#3 bits 0x0000018C#32 (by decide)

theorem TableRow.addoU128 (bits : BitVec 8) (a b : BitVec 128) : TableRow.Statement (.addoU128 bits a b) :=
  packWord_masked 0x0C#6 0#1 4#3 bits 0x0000020C#32 (by decide)

theorem TableRow.addoI8 (bits : BitVec 8) (a b : BitVec 8) : TableRow.Statement (.addoI8 bits a b) :=
  packWord_masked 0x0C#6 1#1 0#3 bits 0x0000004C#32 (by decide)

theorem TableRow.addoI16 (bits : BitVec 8) (a b : BitVec 16) : TableRow.Statement (.addoI16 bits a b) :=
  packWord_masked 0x0C#6 1#1 1#3 bits 0x000000CC#32 (by decide)

theorem TableRow.addoI32 (bits : BitVec 8) (a b : BitVec 32) : TableRow.Statement (.addoI32 bits a b) :=
  packWord_masked 0x0C#6 1#1 2#3 bits 0x0000014C#32 (by decide)

theorem TableRow.addoI64 (bits : BitVec 8) (a b : BitVec 64) : TableRow.Statement (.addoI64 bits a b) :=
  packWord_masked 0x0C#6 1#1 3#3 bits 0x000001CC#32 (by decide)

theorem TableRow.addoI128 (bits : BitVec 8) (a b : BitVec 128) : TableRow.Statement (.addoI128 bits a b) :=
  packWord_masked 0x0C#6 1#1 4#3 bits 0x0000024C#32 (by decide)

theorem TableRow.suboU8 (bits : BitVec 8) (a b : BitVec 8) : TableRow.Statement (.suboU8 bits a b) :=
  packWord_masked 0x0D#6 0#1 0#3 bits 0x0000000D#32 (by decide)

theorem TableRow.suboU16 (bits : BitVec 8) (a b : BitVec 16) : TableRow.Statement (.suboU16 bits a b) :=
  packWord_masked 0x0D#6 0#1 1#3 bits 0x0000008D#32 (by decide)

theorem TableRow.suboU32 (bits : BitVec 8) (a b : BitVec 32) : TableRow.Statement (.suboU32 bits a b) :=
  packWord_masked 0x0D#6 0#1 2#3 bits 0x0000010D#32 (by decide)

theorem TableRow.suboU64 (bits : BitVec 8) (a b : BitVec 64) : TableRow.Statement (.suboU64 bits a b) :=
  packWord_masked 0x0D#6 0#1 3#3 bits 0x0000018D#32 (by decide)

theorem TableRow.suboU128 (bits : BitVec 8) (a b : BitVec 128) : TableRow.Statement (.suboU128 bits a b) :=
  packWord_masked 0x0D#6 0#1 4#3 bits 0x0000020D#32 (by decide)

theorem TableRow.suboI8 (bits : BitVec 8) (a b : BitVec 8) : TableRow.Statement (.suboI8 bits a b) :=
  packWord_masked 0x0D#6 1#1 0#3 bits 0x0000004D#32 (by decide)

theorem TableRow.suboI16 (bits : BitVec 8) (a b : BitVec 16) : TableRow.Statement (.suboI16 bits a b) :=
  packWord_masked 0x0D#6 1#1 1#3 bits 0x000000CD#32 (by decide)

theorem TableRow.suboI32 (bits : BitVec 8) (a b : BitVec 32) : TableRow.Statement (.suboI32 bits a b) :=
  packWord_masked 0x0D#6 1#1 2#3 bits 0x0000014D#32 (by decide)

theorem TableRow.suboI64 (bits : BitVec 8) (a b : BitVec 64) : TableRow.Statement (.suboI64 bits a b) :=
  packWord_masked 0x0D#6 1#1 3#3 bits 0x000001CD#32 (by decide)

theorem TableRow.suboI128 (bits : BitVec 8) (a b : BitVec 128) : TableRow.Statement (.suboI128 bits a b) :=
  packWord_masked 0x0D#6 1#1 4#3 bits 0x0000024D#32 (by decide)

theorem TableRow.muloU8 (bits : BitVec 8) (a b : BitVec 8) : TableRow.Statement (.muloU8 bits a b) :=
  packWord_masked 0x0E#6 0#1 0#3 bits 0x0000000E#32 (by decide)

theorem TableRow.muloU16 (bits : BitVec 8) (a b : BitVec 16) : TableRow.Statement (.muloU16 bits a b) :=
  packWord_masked 0x0E#6 0#1 1#3 bits 0x0000008E#32 (by decide)

theorem TableRow.muloU32 (bits : BitVec 8) (a b : BitVec 32) : TableRow.Statement (.muloU32 bits a b) :=
  packWord_masked 0x0E#6 0#1 2#3 bits 0x0000010E#32 (by decide)

theorem TableRow.muloU64 (bits : BitVec 8) (a b : BitVec 64) : TableRow.Statement (.muloU64 bits a b) :=
  packWord_masked 0x0E#6 0#1 3#3 bits 0x0000018E#32 (by decide)

theorem TableRow.muloU128 (bits : BitVec 8) (a b : BitVec 128) : TableRow.Statement (.muloU128 bits a b) :=
  packWord_masked 0x0E#6 0#1 4#3 bits 0x0000020E#32 (by decide)

theorem TableRow.muloI8 (bits : BitVec 8) (a b : BitVec 8) : TableRow.Statement (.muloI8 bits a b) :=
  packWord_masked 0x0E#6 1#1 0#3 bits 0x0000004E#32 (by decide)

theorem TableRow.muloI16 (bits : BitVec 8) (a b : BitVec 16) : TableRow.Statement (.muloI16 bits a b) :=
  packWord_masked 0x0E#6 1#1 1#3 bits 0x000000CE#32 (by decide)

theorem TableRow.muloI32 (bits : BitVec 8) (a b : BitVec 32) : TableRow.Statement (.muloI32 bits a b) :=
  packWord_masked 0x0E#6 1#1 2#3 bits 0x0000014E#32 (by decide)

theorem TableRow.muloI64 (bits : BitVec 8) (a b : BitVec 64) : TableRow.Statement (.muloI64 bits a b) :=
  packWord_masked 0x0E#6 1#1 3#3 bits 0x000001CE#32 (by decide)

theorem TableRow.muloI128 (bits : BitVec 8) (a b : BitVec 128) : TableRow.Statement (.muloI128 bits a b) :=
  packWord_masked 0x0E#6 1#1 4#3 bits 0x0000024E#32 (by decide)

theorem TableRow.addsU8 (bits : BitVec 8) (a b : BitVec 8) : TableRow.Statement (.addsU8 bits a b) :=
  packWord_masked 0x10#6 0#1 0#3 bits 0x00000010#32 (by decide)

theorem TableRow.addsU16 (bits : BitVec 8) (a b : BitVec 16) : TableRow.Statement (.addsU16 bits a b) :=
  packWord_masked 0x10#6 0#1 1#3 bits 0x00000090#32 (by decide)

theorem TableRow.addsU32 (bits : BitVec 8) (a b : BitVec 32) : TableRow.Statement (.addsU32 bits a b) :=
  packWord_masked 0x10#6 0#1 2#3 bits 0x00000110#32 (by decide)

theorem TableRow.addsU64 (bits : BitVec 8) (a b : BitVec 64) : TableRow.Statement (.addsU64 bits a b) :=
  packWord_masked 0x10#6 0#1 3#3 bits 0x00000190#32 (by decide)

theorem TableRow.addsU128 (bits : BitVec 8) (a b : BitVec 128) : TableRow.Statement (.addsU128 bits a b) :=
  packWord_masked 0x10#6 0#1 4#3 bits 0x00000210#32 (by decide)

theorem TableRow.addsI8 (bits : BitVec 8) (a b : BitVec 8) : TableRow.Statement (.addsI8 bits a b) :=
  packWord_masked 0x10#6 1#1 0#3 bits 0x00000050#32 (by decide)

theorem TableRow.addsI16 (bits : BitVec 8) (a b : BitVec 16) : TableRow.Statement (.addsI16 bits a b) :=
  packWord_masked 0x10#6 1#1 1#3 bits 0x000000D0#32 (by decide)

theorem TableRow.addsI32 (bits : BitVec 8) (a b : BitVec 32) : TableRow.Statement (.addsI32 bits a b) :=
  packWord_masked 0x10#6 1#1 2#3 bits 0x00000150#32 (by decide)

theorem TableRow.addsI64 (bits : BitVec 8) (a b : BitVec 64) : TableRow.Statement (.addsI64 bits a b) :=
  packWord_masked 0x10#6 1#1 3#3 bits 0x000001D0#32 (by decide)

theorem TableRow.addsI128 (bits : BitVec 8) (a b : BitVec 128) : TableRow.Statement (.addsI128 bits a b) :=
  packWord_masked 0x10#6 1#1 4#3 bits 0x00000250#32 (by decide)

theorem TableRow.subsU8 (bits : BitVec 8) (a b : BitVec 8) : TableRow.Statement (.subsU8 bits a b) :=
  packWord_masked 0x11#6 0#1 0#3 bits 0x00000011#32 (by decide)

theorem TableRow.subsU16 (bits : BitVec 8) (a b : BitVec 16) : TableRow.Statement (.subsU16 bits a b) :=
  packWord_masked 0x11#6 0#1 1#3 bits 0x00000091#32 (by decide)

theorem TableRow.subsU32 (bits : BitVec 8) (a b : BitVec 32) : TableRow.Statement (.subsU32 bits a b) :=
  packWord_masked 0x11#6 0#1 2#3 bits 0x00000111#32 (by decide)

theorem TableRow.subsU64 (bits : BitVec 8) (a b : BitVec 64) : TableRow.Statement (.subsU64 bits a b) :=
  packWord_masked 0x11#6 0#1 3#3 bits 0x00000191#32 (by decide)

theorem TableRow.subsU128 (bits : BitVec 8) (a b : BitVec 128) : TableRow.Statement (.subsU128 bits a b) :=
  packWord_masked 0x11#6 0#1 4#3 bits 0x00000211#32 (by decide)

theorem TableRow.subsI8 (bits : BitVec 8) (a b : BitVec 8) : TableRow.Statement (.subsI8 bits a b) :=
  packWord_masked 0x11#6 1#1 0#3 bits 0x00000051#32 (by decide)

theorem TableRow.subsI16 (bits : BitVec 8) (a b : BitVec 16) : TableRow.Statement (.subsI16 bits a b) :=
  packWord_masked 0x11#6 1#1 1#3 bits 0x000000D1#32 (by decide)

theorem TableRow.subsI32 (bits : BitVec 8) (a b : BitVec 32) : TableRow.Statement (.subsI32 bits a b) :=
  packWord_masked 0x11#6 1#1 2#3 bits 0x00000151#32 (by decide)

theorem TableRow.subsI64 (bits : BitVec 8) (a b : BitVec 64) : TableRow.Statement (.subsI64 bits a b) :=
  packWord_masked 0x11#6 1#1 3#3 bits 0x000001D1#32 (by decide)

theorem TableRow.subsI128 (bits : BitVec 8) (a b : BitVec 128) : TableRow.Statement (.subsI128 bits a b) :=
  packWord_masked 0x11#6 1#1 4#3 bits 0x00000251#32 (by decide)

theorem TableRow.mulsU8 (bits : BitVec 8) (a b : BitVec 8) : TableRow.Statement (.mulsU8 bits a b) :=
  packWord_masked 0x12#6 0#1 0#3 bits 0x00000012#32 (by decide)

theorem TableRow.mulsU16 (bits : BitVec 8) (a b : BitVec 16) : TableRow.Statement (.mulsU16 bits a b) :=
  packWord_masked 0x12#6 0#1 1#3 bits 0x00000092#32 (by decide)

theorem TableRow.mulsU32 (bits : BitVec 8) (a b : BitVec 32) : TableRow.Statement (.mulsU32 bits a b) :=
  packWord_masked 0x12#6 0#1 2#3 bits 0x00000112#32 (by decide)

theorem TableRow.mulsU64 (bits : BitVec 8) (a b : BitVec 64) : TableRow.Statement (.mulsU64 bits a b) :=
  packWord_masked 0x12#6 0#1 3#3 bits 0x00000192#32 (by decide)

theorem TableRow.mulsU128 (bits : BitVec 8) (a b : BitVec 128) : TableRow.Statement (.mulsU128 bits a b) :=
  packWord_masked 0x12#6 0#1 4#3 bits 0x00000212#32 (by decide)

theorem TableRow.mulsI8 (bits : BitVec 8) (a b : BitVec 8) : TableRow.Statement (.mulsI8 bits a b) :=
  packWord_masked 0x12#6 1#1 0#3 bits 0x00000052#32 (by decide)

theorem TableRow.mulsI16 (bits : BitVec 8) (a b : BitVec 16) : TableRow.Statement (.mulsI16 bits a b) :=
  packWord_masked 0x12#6 1#1 1#3 bits 0x000000D2#32 (by decide)

theorem TableRow.mulsI32 (bits : BitVec 8) (a b : BitVec 32) : TableRow.Statement (.mulsI32 bits a b) :=
  packWord_masked 0x12#6 1#1 2#3 bits 0x00000152#32 (by decide)

theorem TableRow.mulsI64 (bits : BitVec 8) (a b : BitVec 64) : TableRow.Statement (.mulsI64 bits a b) :=
  packWord_masked 0x12#6 1#1 3#3 bits 0x000001D2#32 (by decide)

theorem TableRow.mulsI128 (bits : BitVec 8) (a b : BitVec 128) : TableRow.Statement (.mulsI128 bits a b) :=
  packWord_masked 0x12#6 1#1 4#3 bits 0x00000252#32 (by decide)

theorem TableRow.divTruncU8 (bits : BitVec 8) (a b : BitVec 8) : TableRow.Statement (.divTruncU8 bits a b) :=
  packWord_masked 0x14#6 0#1 0#3 bits 0x00000014#32 (by decide)

theorem TableRow.divTruncU16 (bits : BitVec 8) (a b : BitVec 16) : TableRow.Statement (.divTruncU16 bits a b) :=
  packWord_masked 0x14#6 0#1 1#3 bits 0x00000094#32 (by decide)

theorem TableRow.divTruncU32 (bits : BitVec 8) (a b : BitVec 32) : TableRow.Statement (.divTruncU32 bits a b) :=
  packWord_masked 0x14#6 0#1 2#3 bits 0x00000114#32 (by decide)

theorem TableRow.divTruncU64 (bits : BitVec 8) (a b : BitVec 64) : TableRow.Statement (.divTruncU64 bits a b) :=
  packWord_masked 0x14#6 0#1 3#3 bits 0x00000194#32 (by decide)

theorem TableRow.divTruncU128 (bits : BitVec 8) (a b : BitVec 128) : TableRow.Statement (.divTruncU128 bits a b) :=
  packWord_masked 0x14#6 0#1 4#3 bits 0x00000214#32 (by decide)

theorem TableRow.divTruncI8 (bits : BitVec 8) (a b : BitVec 8) : TableRow.Statement (.divTruncI8 bits a b) :=
  packWord_masked 0x14#6 1#1 0#3 bits 0x00000054#32 (by decide)

theorem TableRow.divTruncI16 (bits : BitVec 8) (a b : BitVec 16) : TableRow.Statement (.divTruncI16 bits a b) :=
  packWord_masked 0x14#6 1#1 1#3 bits 0x000000D4#32 (by decide)

theorem TableRow.divTruncI32 (bits : BitVec 8) (a b : BitVec 32) : TableRow.Statement (.divTruncI32 bits a b) :=
  packWord_masked 0x14#6 1#1 2#3 bits 0x00000154#32 (by decide)

theorem TableRow.divTruncI64 (bits : BitVec 8) (a b : BitVec 64) : TableRow.Statement (.divTruncI64 bits a b) :=
  packWord_masked 0x14#6 1#1 3#3 bits 0x000001D4#32 (by decide)

theorem TableRow.divTruncI128 (bits : BitVec 8) (a b : BitVec 128) : TableRow.Statement (.divTruncI128 bits a b) :=
  packWord_masked 0x14#6 1#1 4#3 bits 0x00000254#32 (by decide)

theorem TableRow.remU8 (bits : BitVec 8) (a b : BitVec 8) : TableRow.Statement (.remU8 bits a b) :=
  packWord_masked 0x15#6 0#1 0#3 bits 0x00000015#32 (by decide)

theorem TableRow.remU16 (bits : BitVec 8) (a b : BitVec 16) : TableRow.Statement (.remU16 bits a b) :=
  packWord_masked 0x15#6 0#1 1#3 bits 0x00000095#32 (by decide)

theorem TableRow.remU32 (bits : BitVec 8) (a b : BitVec 32) : TableRow.Statement (.remU32 bits a b) :=
  packWord_masked 0x15#6 0#1 2#3 bits 0x00000115#32 (by decide)

theorem TableRow.remU64 (bits : BitVec 8) (a b : BitVec 64) : TableRow.Statement (.remU64 bits a b) :=
  packWord_masked 0x15#6 0#1 3#3 bits 0x00000195#32 (by decide)

theorem TableRow.remU128 (bits : BitVec 8) (a b : BitVec 128) : TableRow.Statement (.remU128 bits a b) :=
  packWord_masked 0x15#6 0#1 4#3 bits 0x00000215#32 (by decide)

theorem TableRow.remI8 (bits : BitVec 8) (a b : BitVec 8) : TableRow.Statement (.remI8 bits a b) :=
  packWord_masked 0x15#6 1#1 0#3 bits 0x00000055#32 (by decide)

theorem TableRow.remI16 (bits : BitVec 8) (a b : BitVec 16) : TableRow.Statement (.remI16 bits a b) :=
  packWord_masked 0x15#6 1#1 1#3 bits 0x000000D5#32 (by decide)

theorem TableRow.remI32 (bits : BitVec 8) (a b : BitVec 32) : TableRow.Statement (.remI32 bits a b) :=
  packWord_masked 0x15#6 1#1 2#3 bits 0x00000155#32 (by decide)

theorem TableRow.remI64 (bits : BitVec 8) (a b : BitVec 64) : TableRow.Statement (.remI64 bits a b) :=
  packWord_masked 0x15#6 1#1 3#3 bits 0x000001D5#32 (by decide)

theorem TableRow.remI128 (bits : BitVec 8) (a b : BitVec 128) : TableRow.Statement (.remI128 bits a b) :=
  packWord_masked 0x15#6 1#1 4#3 bits 0x00000255#32 (by decide)

theorem TableRow.divFloorU8 (bits : BitVec 8) (a b : BitVec 8) : TableRow.Statement (.divFloorU8 bits a b) :=
  packWord_masked 0x16#6 0#1 0#3 bits 0x00000016#32 (by decide)

theorem TableRow.divFloorU16 (bits : BitVec 8) (a b : BitVec 16) : TableRow.Statement (.divFloorU16 bits a b) :=
  packWord_masked 0x16#6 0#1 1#3 bits 0x00000096#32 (by decide)

theorem TableRow.divFloorU32 (bits : BitVec 8) (a b : BitVec 32) : TableRow.Statement (.divFloorU32 bits a b) :=
  packWord_masked 0x16#6 0#1 2#3 bits 0x00000116#32 (by decide)

theorem TableRow.divFloorU64 (bits : BitVec 8) (a b : BitVec 64) : TableRow.Statement (.divFloorU64 bits a b) :=
  packWord_masked 0x16#6 0#1 3#3 bits 0x00000196#32 (by decide)

theorem TableRow.divFloorU128 (bits : BitVec 8) (a b : BitVec 128) : TableRow.Statement (.divFloorU128 bits a b) :=
  packWord_masked 0x16#6 0#1 4#3 bits 0x00000216#32 (by decide)

theorem TableRow.divFloorI8 (bits : BitVec 8) (a b : BitVec 8) : TableRow.Statement (.divFloorI8 bits a b) :=
  packWord_masked 0x16#6 1#1 0#3 bits 0x00000056#32 (by decide)

theorem TableRow.divFloorI16 (bits : BitVec 8) (a b : BitVec 16) : TableRow.Statement (.divFloorI16 bits a b) :=
  packWord_masked 0x16#6 1#1 1#3 bits 0x000000D6#32 (by decide)

theorem TableRow.divFloorI32 (bits : BitVec 8) (a b : BitVec 32) : TableRow.Statement (.divFloorI32 bits a b) :=
  packWord_masked 0x16#6 1#1 2#3 bits 0x00000156#32 (by decide)

theorem TableRow.divFloorI64 (bits : BitVec 8) (a b : BitVec 64) : TableRow.Statement (.divFloorI64 bits a b) :=
  packWord_masked 0x16#6 1#1 3#3 bits 0x000001D6#32 (by decide)

theorem TableRow.divFloorI128 (bits : BitVec 8) (a b : BitVec 128) : TableRow.Statement (.divFloorI128 bits a b) :=
  packWord_masked 0x16#6 1#1 4#3 bits 0x00000256#32 (by decide)

theorem TableRow.modU8 (bits : BitVec 8) (a b : BitVec 8) : TableRow.Statement (.modU8 bits a b) :=
  packWord_masked 0x17#6 0#1 0#3 bits 0x00000017#32 (by decide)

theorem TableRow.modU16 (bits : BitVec 8) (a b : BitVec 16) : TableRow.Statement (.modU16 bits a b) :=
  packWord_masked 0x17#6 0#1 1#3 bits 0x00000097#32 (by decide)

theorem TableRow.modU32 (bits : BitVec 8) (a b : BitVec 32) : TableRow.Statement (.modU32 bits a b) :=
  packWord_masked 0x17#6 0#1 2#3 bits 0x00000117#32 (by decide)

theorem TableRow.modU64 (bits : BitVec 8) (a b : BitVec 64) : TableRow.Statement (.modU64 bits a b) :=
  packWord_masked 0x17#6 0#1 3#3 bits 0x00000197#32 (by decide)

theorem TableRow.modU128 (bits : BitVec 8) (a b : BitVec 128) : TableRow.Statement (.modU128 bits a b) :=
  packWord_masked 0x17#6 0#1 4#3 bits 0x00000217#32 (by decide)

theorem TableRow.modI8 (bits : BitVec 8) (a b : BitVec 8) : TableRow.Statement (.modI8 bits a b) :=
  packWord_masked 0x17#6 1#1 0#3 bits 0x00000057#32 (by decide)

theorem TableRow.modI16 (bits : BitVec 8) (a b : BitVec 16) : TableRow.Statement (.modI16 bits a b) :=
  packWord_masked 0x17#6 1#1 1#3 bits 0x000000D7#32 (by decide)

theorem TableRow.modI32 (bits : BitVec 8) (a b : BitVec 32) : TableRow.Statement (.modI32 bits a b) :=
  packWord_masked 0x17#6 1#1 2#3 bits 0x00000157#32 (by decide)

theorem TableRow.modI64 (bits : BitVec 8) (a b : BitVec 64) : TableRow.Statement (.modI64 bits a b) :=
  packWord_masked 0x17#6 1#1 3#3 bits 0x000001D7#32 (by decide)

theorem TableRow.modI128 (bits : BitVec 8) (a b : BitVec 128) : TableRow.Statement (.modI128 bits a b) :=
  packWord_masked 0x17#6 1#1 4#3 bits 0x00000257#32 (by decide)

theorem TableRow.clzU8 (bits : BitVec 8) (a : BitVec 8) : TableRow.Statement (.clzU8 bits a) :=
  packWord_masked 0x18#6 0#1 0#3 bits 0x00000018#32 (by decide)

theorem TableRow.clzU16 (bits : BitVec 8) (a : BitVec 16) : TableRow.Statement (.clzU16 bits a) :=
  packWord_masked 0x18#6 0#1 1#3 bits 0x00000098#32 (by decide)

theorem TableRow.clzU32 (bits : BitVec 8) (a : BitVec 32) : TableRow.Statement (.clzU32 bits a) :=
  packWord_masked 0x18#6 0#1 2#3 bits 0x00000118#32 (by decide)

theorem TableRow.clzU64 (bits : BitVec 8) (a : BitVec 64) : TableRow.Statement (.clzU64 bits a) :=
  packWord_masked 0x18#6 0#1 3#3 bits 0x00000198#32 (by decide)

theorem TableRow.clzU128 (bits : BitVec 8) (a : BitVec 128) : TableRow.Statement (.clzU128 bits a) :=
  packWord_masked 0x18#6 0#1 4#3 bits 0x00000218#32 (by decide)

theorem TableRow.clzI8 (bits : BitVec 8) (a : BitVec 8) : TableRow.Statement (.clzI8 bits a) :=
  packWord_masked 0x18#6 1#1 0#3 bits 0x00000058#32 (by decide)

theorem TableRow.clzI16 (bits : BitVec 8) (a : BitVec 16) : TableRow.Statement (.clzI16 bits a) :=
  packWord_masked 0x18#6 1#1 1#3 bits 0x000000D8#32 (by decide)

theorem TableRow.clzI32 (bits : BitVec 8) (a : BitVec 32) : TableRow.Statement (.clzI32 bits a) :=
  packWord_masked 0x18#6 1#1 2#3 bits 0x00000158#32 (by decide)

theorem TableRow.clzI64 (bits : BitVec 8) (a : BitVec 64) : TableRow.Statement (.clzI64 bits a) :=
  packWord_masked 0x18#6 1#1 3#3 bits 0x000001D8#32 (by decide)

theorem TableRow.clzI128 (bits : BitVec 8) (a : BitVec 128) : TableRow.Statement (.clzI128 bits a) :=
  packWord_masked 0x18#6 1#1 4#3 bits 0x00000258#32 (by decide)

theorem TableRow.ctzU8 (bits : BitVec 8) (a : BitVec 8) : TableRow.Statement (.ctzU8 bits a) :=
  packWord_masked 0x19#6 0#1 0#3 bits 0x00000019#32 (by decide)

theorem TableRow.ctzU16 (bits : BitVec 8) (a : BitVec 16) : TableRow.Statement (.ctzU16 bits a) :=
  packWord_masked 0x19#6 0#1 1#3 bits 0x00000099#32 (by decide)

theorem TableRow.ctzU32 (bits : BitVec 8) (a : BitVec 32) : TableRow.Statement (.ctzU32 bits a) :=
  packWord_masked 0x19#6 0#1 2#3 bits 0x00000119#32 (by decide)

theorem TableRow.ctzU64 (bits : BitVec 8) (a : BitVec 64) : TableRow.Statement (.ctzU64 bits a) :=
  packWord_masked 0x19#6 0#1 3#3 bits 0x00000199#32 (by decide)

theorem TableRow.ctzU128 (bits : BitVec 8) (a : BitVec 128) : TableRow.Statement (.ctzU128 bits a) :=
  packWord_masked 0x19#6 0#1 4#3 bits 0x00000219#32 (by decide)

theorem TableRow.ctzI8 (bits : BitVec 8) (a : BitVec 8) : TableRow.Statement (.ctzI8 bits a) :=
  packWord_masked 0x19#6 1#1 0#3 bits 0x00000059#32 (by decide)

theorem TableRow.ctzI16 (bits : BitVec 8) (a : BitVec 16) : TableRow.Statement (.ctzI16 bits a) :=
  packWord_masked 0x19#6 1#1 1#3 bits 0x000000D9#32 (by decide)

theorem TableRow.ctzI32 (bits : BitVec 8) (a : BitVec 32) : TableRow.Statement (.ctzI32 bits a) :=
  packWord_masked 0x19#6 1#1 2#3 bits 0x00000159#32 (by decide)

theorem TableRow.ctzI64 (bits : BitVec 8) (a : BitVec 64) : TableRow.Statement (.ctzI64 bits a) :=
  packWord_masked 0x19#6 1#1 3#3 bits 0x000001D9#32 (by decide)

theorem TableRow.ctzI128 (bits : BitVec 8) (a : BitVec 128) : TableRow.Statement (.ctzI128 bits a) :=
  packWord_masked 0x19#6 1#1 4#3 bits 0x00000259#32 (by decide)

theorem TableRow.popcountU8 (bits : BitVec 8) (a : BitVec 8) : TableRow.Statement (.popcountU8 bits a) :=
  packWord_masked 0x1A#6 0#1 0#3 bits 0x0000001A#32 (by decide)

theorem TableRow.popcountU16 (bits : BitVec 8) (a : BitVec 16) : TableRow.Statement (.popcountU16 bits a) :=
  packWord_masked 0x1A#6 0#1 1#3 bits 0x0000009A#32 (by decide)

theorem TableRow.popcountU32 (bits : BitVec 8) (a : BitVec 32) : TableRow.Statement (.popcountU32 bits a) :=
  packWord_masked 0x1A#6 0#1 2#3 bits 0x0000011A#32 (by decide)

theorem TableRow.popcountU64 (bits : BitVec 8) (a : BitVec 64) : TableRow.Statement (.popcountU64 bits a) :=
  packWord_masked 0x1A#6 0#1 3#3 bits 0x0000019A#32 (by decide)

theorem TableRow.popcountU128 (bits : BitVec 8) (a : BitVec 128) : TableRow.Statement (.popcountU128 bits a) :=
  packWord_masked 0x1A#6 0#1 4#3 bits 0x0000021A#32 (by decide)

theorem TableRow.popcountI8 (bits : BitVec 8) (a : BitVec 8) : TableRow.Statement (.popcountI8 bits a) :=
  packWord_masked 0x1A#6 1#1 0#3 bits 0x0000005A#32 (by decide)

theorem TableRow.popcountI16 (bits : BitVec 8) (a : BitVec 16) : TableRow.Statement (.popcountI16 bits a) :=
  packWord_masked 0x1A#6 1#1 1#3 bits 0x000000DA#32 (by decide)

theorem TableRow.popcountI32 (bits : BitVec 8) (a : BitVec 32) : TableRow.Statement (.popcountI32 bits a) :=
  packWord_masked 0x1A#6 1#1 2#3 bits 0x0000015A#32 (by decide)

theorem TableRow.popcountI64 (bits : BitVec 8) (a : BitVec 64) : TableRow.Statement (.popcountI64 bits a) :=
  packWord_masked 0x1A#6 1#1 3#3 bits 0x000001DA#32 (by decide)

theorem TableRow.popcountI128 (bits : BitVec 8) (a : BitVec 128) : TableRow.Statement (.popcountI128 bits a) :=
  packWord_masked 0x1A#6 1#1 4#3 bits 0x0000025A#32 (by decide)

theorem TableRow.byteswapU8 (bits : BitVec 8) (a : BitVec 8) : TableRow.Statement (.byteswapU8 bits a) :=
  packWord_masked 0x1B#6 0#1 0#3 bits 0x0000001B#32 (by decide)

theorem TableRow.byteswapU16 (bits : BitVec 8) (a : BitVec 16) : TableRow.Statement (.byteswapU16 bits a) :=
  packWord_masked 0x1B#6 0#1 1#3 bits 0x0000009B#32 (by decide)

theorem TableRow.byteswapU32 (bits : BitVec 8) (a : BitVec 32) : TableRow.Statement (.byteswapU32 bits a) :=
  packWord_masked 0x1B#6 0#1 2#3 bits 0x0000011B#32 (by decide)

theorem TableRow.byteswapU64 (bits : BitVec 8) (a : BitVec 64) : TableRow.Statement (.byteswapU64 bits a) :=
  packWord_masked 0x1B#6 0#1 3#3 bits 0x0000019B#32 (by decide)

theorem TableRow.byteswapU128 (bits : BitVec 8) (a : BitVec 128) : TableRow.Statement (.byteswapU128 bits a) :=
  packWord_masked 0x1B#6 0#1 4#3 bits 0x0000021B#32 (by decide)

theorem TableRow.byteswapI8 (bits : BitVec 8) (a : BitVec 8) : TableRow.Statement (.byteswapI8 bits a) :=
  packWord_masked 0x1B#6 1#1 0#3 bits 0x0000005B#32 (by decide)

theorem TableRow.byteswapI16 (bits : BitVec 8) (a : BitVec 16) : TableRow.Statement (.byteswapI16 bits a) :=
  packWord_masked 0x1B#6 1#1 1#3 bits 0x000000DB#32 (by decide)

theorem TableRow.byteswapI32 (bits : BitVec 8) (a : BitVec 32) : TableRow.Statement (.byteswapI32 bits a) :=
  packWord_masked 0x1B#6 1#1 2#3 bits 0x0000015B#32 (by decide)

theorem TableRow.byteswapI64 (bits : BitVec 8) (a : BitVec 64) : TableRow.Statement (.byteswapI64 bits a) :=
  packWord_masked 0x1B#6 1#1 3#3 bits 0x000001DB#32 (by decide)

theorem TableRow.byteswapI128 (bits : BitVec 8) (a : BitVec 128) : TableRow.Statement (.byteswapI128 bits a) :=
  packWord_masked 0x1B#6 1#1 4#3 bits 0x0000025B#32 (by decide)

theorem TableRow.bitreverseU8 (bits : BitVec 8) (a : BitVec 8) : TableRow.Statement (.bitreverseU8 bits a) :=
  packWord_masked 0x1C#6 0#1 0#3 bits 0x0000001C#32 (by decide)

theorem TableRow.bitreverseU16 (bits : BitVec 8) (a : BitVec 16) : TableRow.Statement (.bitreverseU16 bits a) :=
  packWord_masked 0x1C#6 0#1 1#3 bits 0x0000009C#32 (by decide)

theorem TableRow.bitreverseU32 (bits : BitVec 8) (a : BitVec 32) : TableRow.Statement (.bitreverseU32 bits a) :=
  packWord_masked 0x1C#6 0#1 2#3 bits 0x0000011C#32 (by decide)

theorem TableRow.bitreverseU64 (bits : BitVec 8) (a : BitVec 64) : TableRow.Statement (.bitreverseU64 bits a) :=
  packWord_masked 0x1C#6 0#1 3#3 bits 0x0000019C#32 (by decide)

theorem TableRow.bitreverseU128 (bits : BitVec 8) (a : BitVec 128) : TableRow.Statement (.bitreverseU128 bits a) :=
  packWord_masked 0x1C#6 0#1 4#3 bits 0x0000021C#32 (by decide)

theorem TableRow.bitreverseI8 (bits : BitVec 8) (a : BitVec 8) : TableRow.Statement (.bitreverseI8 bits a) :=
  packWord_masked 0x1C#6 1#1 0#3 bits 0x0000005C#32 (by decide)

theorem TableRow.bitreverseI16 (bits : BitVec 8) (a : BitVec 16) : TableRow.Statement (.bitreverseI16 bits a) :=
  packWord_masked 0x1C#6 1#1 1#3 bits 0x000000DC#32 (by decide)

theorem TableRow.bitreverseI32 (bits : BitVec 8) (a : BitVec 32) : TableRow.Statement (.bitreverseI32 bits a) :=
  packWord_masked 0x1C#6 1#1 2#3 bits 0x0000015C#32 (by decide)

theorem TableRow.bitreverseI64 (bits : BitVec 8) (a : BitVec 64) : TableRow.Statement (.bitreverseI64 bits a) :=
  packWord_masked 0x1C#6 1#1 3#3 bits 0x000001DC#32 (by decide)

theorem TableRow.bitreverseI128 (bits : BitVec 8) (a : BitVec 128) : TableRow.Statement (.bitreverseI128 bits a) :=
  packWord_masked 0x1C#6 1#1 4#3 bits 0x0000025C#32 (by decide)

theorem TableRow.makeU128 (a b : BitVec 64) : TableRow.Statement (.makeU128 a b) :=
  packWord_unmasked 0x20#6 0#1 4#3 0#8 0x00000220#32 (by decide)

theorem TableRow.makeI128 (a b : BitVec 64) : TableRow.Statement (.makeI128 a b) :=
  packWord_unmasked 0x20#6 1#1 4#3 0#8 0x00000260#32 (by decide)

theorem TableRow.hiU128 (a : BitVec 128) : TableRow.Statement (.hiU128 a) :=
  packWord_unmasked 0x21#6 0#1 4#3 0#8 0x00000221#32 (by decide)

theorem TableRow.hiI128 (a : BitVec 128) : TableRow.Statement (.hiI128 a) :=
  packWord_unmasked 0x21#6 1#1 4#3 0#8 0x00000261#32 (by decide)

theorem TableRow.loU128 (a : BitVec 128) : TableRow.Statement (.loU128 a) :=
  packWord_unmasked 0x22#6 0#1 4#3 0#8 0x00000222#32 (by decide)

theorem TableRow.loI128 (a : BitVec 128) : TableRow.Statement (.loI128 a) :=
  packWord_unmasked 0x22#6 1#1 4#3 0#8 0x00000262#32 (by decide)

theorem TableRow.cmpU128 (a b : BitVec 128) : TableRow.Statement (.cmpU128 a b) :=
  packWord_unmasked 0x23#6 0#1 4#3 0#8 0x00000223#32 (by decide)

theorem TableRow.cmpI128 (a b : BitVec 128) : TableRow.Statement (.cmpI128 a b) :=
  packWord_unmasked 0x23#6 1#1 4#3 0#8 0x00000263#32 (by decide)

end Sys2Proof.Laws
end

