-- ==== Sys2Proof/Laws/Step.lean ====
section
/-!
SUPPORT. What a step can do, said once.
-/

namespace Sys2Proof.Machine

section
variable {s : State} {rest : List HostAction}

theorem step_idle (h : s.host = []) : step s = idle s := by simp [step, nextAction, h]

theorem step_read {n : BitVec 8} (h : s.host = .read n :: rest) :
    step s = .next (hostRead n { s with host := rest }) := by simp [step, nextAction, h]

theorem step_reset (h : s.host = .reset :: rest) :
    step s = .next (resetBlock { s with host := rest }) := by simp [step, nextAction, h]

theorem step_request_error {r : Request} {c : FaultCode} (h : s.host = .request r :: rest) (hd : decode r = .error c) :
    step s = rejectRequest c { s with host := rest } := by simp [step, nextAction, h, hd]

/-- A request whose fields are legal runs the shared operation of its row. -/
theorem step_request_fields {r : Request} {f : Fields} (h : s.host = .request r :: rest) (hd : decodeFields r = .ok f) :
    step s = execFields f { s with host := rest } := by
  simp [step, nextAction, h, decode, hd, exec_rowOf]
end

/-- Every step that answers a next state: idle, a read, a reset, a rejected request, or a request that faults or completes. -/
theorem step_cases {s t : State} (h : step s = .next t) :
    (s.host = [] ∧ s.fault = 0x00#8 ∧ t = s) ∨
    (∃ n rest, s.host = .read n :: rest ∧ t = hostRead n { s with host := rest }) ∨
    (∃ rest, s.host = .reset :: rest ∧ t = resetBlock { s with host := rest }) ∨
    (∃ r rest, s.host = .request r :: rest ∧ s.fault = 0x00#8 ∧
      ((∃ c, t = faulted c { s with host := rest }) ∨
        ∃ i l o, decode r = .ok i ∧ exec i { s with host := rest } = .next t ∧
          t = complete l o { s with host := rest } ∧ l.width = (fieldsOf i).op.resultWidth (fieldsOf i).w ∧
          o.isSome = (fieldsOf i).op.writesOvf)) := by
  rcases hh : s.host with _ | ⟨r | n | _, rest⟩
  · by_cases hf : s.fault = 0x00#8
    · rw [step_idle hh, idle_of_unfaulted hf] at h; cases h; exact .inl ⟨rfl, hf, rfl⟩
    · rw [step_idle hh, idle_of_faulted hf] at h; cases h
  · refine .inr (.inr (.inr ⟨r, rest, rfl, ?_⟩))
    cases hd : decode r with
    | error c =>
      rw [step_request_error hh hd] at h
      obtain ⟨hf, rfl⟩ := rejectRequest_next h
      exact ⟨hf, .inl ⟨c, rfl⟩⟩
    | ok i =>
      have hs : step s = exec i { s with host := rest } := by simp [step, nextAction, hh, hd]
      rw [hs] at h
      rcases exec_next h with ⟨hf, ⟨c, rfl⟩ | ⟨l, o, rfl, hw, ho⟩⟩
      · exact ⟨hf, .inl ⟨c, rfl⟩⟩
      · exact ⟨hf, .inr ⟨i, l, o, rfl, h, rfl, hw, ho⟩⟩
  · rw [step_read hh] at h; cases h; exact .inr (.inl ⟨n, rest, rfl, rfl⟩)
  · rw [step_reset hh] at h; cases h; exact .inr (.inr (.inl ⟨rest, rfl, rfl⟩))

end Sys2Proof.Machine
end

