-- ==== Sys2Proof/Laws/Values.lean ====
section
/-!
SUPPORT. What the value operations of Machine/Operands.lean and the bit operations of Machine/BitManip.lean do: values lie in
their range, encoding and reading are inverse, and each bit of a constructed vector.
-/

namespace Sys2Proof.Machine

@[simp] theorem val_u {n : Nat} (x : BitVec n) : val .u x = x.toNat := rfl
@[simp] theorem val_i {n : Nat} (x : BitVec n) : val .i x = x.toInt := rfl

theorem canonical_iff {sg : Sign} {bits n : Nat} {x : BitVec n} :
    canonical sg bits x = true ↔ minInt sg bits ≤ val sg x ∧ val sg x ≤ maxInt sg bits := by
  simp [canonical]

/-- The value of a container lies in the container's range. -/
theorem val_mem_range (sg : Sign) {n : Nat} (x : BitVec n) (hn : 1 ≤ n) :
    minInt sg n ≤ val sg x ∧ val sg x ≤ maxInt sg n := by
  cases sg
  · have := x.isLt
    simp only [minInt, maxInt, val]; omega
  · have h := BitVec.two_mul_toInt_lt (x := x)
    have h' := BitVec.le_two_mul_toInt (x := x)
    obtain ⟨m, rfl⟩ : ∃ m, n = m + 1 := ⟨n - 1, by omega⟩
    simp only [minInt, maxInt, val, Nat.add_sub_cancel, pow_succ] at *
    push_cast at *
    omega

/-- At the container's own width every value is canonical. -/
theorem canonical_full (sg : Sign) {n : Nat} (x : BitVec n) (hn : 1 ≤ n) : canonical sg n x = true :=
  canonical_iff.mpr (val_mem_range sg x hn)

/-- Encoding the value of a container gives the container. -/
@[simp] theorem enc_val (sg : Sign) {n : Nat} (x : BitVec n) : enc n (val sg x) = x := by
  cases sg <;> simp [enc, val]

/-- Two containers with one value are equal. -/
theorem val_injective (sg : Sign) {n : Nat} {x y : BitVec n} (h : val sg x = val sg y) : x = y := by
  rw [← enc_val sg x, h, enc_val]

/-- A value in the container's range is read back from its encoding. -/
theorem val_enc (sg : Sign) {n : Nat} {v : Int} (hn : 1 ≤ n) (h : minInt sg n ≤ v) (h' : v ≤ maxInt sg n) :
    val sg (enc n v) = v := by
  cases sg
  · simp only [minInt, maxInt, val, enc, BitVec.toNat_ofInt] at *
    rw [Int.toNat_of_nonneg (Int.emod_nonneg _ (by positivity)), Int.emod_eq_of_lt h (by omega)]
  · obtain ⟨m, rfl⟩ : ∃ m, n = m + 1 := ⟨n - 1, by omega⟩
    simp only [minInt, maxInt, val, enc, BitVec.toInt_ofInt, Nat.add_sub_cancel] at *
    apply Int.bmod_eq_of_le <;> push_cast [Nat.pow_succ] at * <;> omega

theorem range_mono (sg : Sign) {bits n : Nat} (hb : bits ≤ n) : minInt sg n ≤ minInt sg bits ∧ maxInt sg bits ≤ maxInt sg n := by
  cases sg
  · have := Nat.pow_le_pow_right (n := 2) (by omega) hb
    simp only [minInt, maxInt]; omega
  · have := Nat.pow_le_pow_right (n := 2) (by omega) (show bits - 1 ≤ n - 1 by omega)
    simp only [minInt, maxInt]; omega

/-- A value in the range of a LogicalWidth is read back from any container that admits the width, and is canonical there. -/
theorem val_enc_of_mem (sg : Sign) {bits n : Nat} {v : Int} (h1 : 1 ≤ bits) (hb : bits ≤ n)
    (h : minInt sg bits ≤ v) (h' : v ≤ maxInt sg bits) :
    val sg (enc n v) = v ∧ canonical sg bits (enc n v) = true := by
  have hm := range_mono sg hb
  have hv := val_enc sg (n := n) (v := v) (by omega) (by omega) (by omega)
  exact ⟨hv, canonical_iff.mpr (by rw [hv]; exact ⟨h, h'⟩)⟩

/-- A clamped value lies in the range. -/
theorem clamp_mem_range (sg : Sign) (bits : Nat) (v : Int) :
    minInt sg bits ≤ clamp sg bits v ∧ clamp sg bits v ≤ maxInt sg bits := by
  have : minInt sg bits ≤ maxInt sg bits := by
    have := Nat.pos_of_ne_zero (Nat.two_pow_pos bits).ne'
    have := Nat.pos_of_ne_zero (Nat.two_pow_pos (bits - 1)).ne'
    cases sg <;> simp only [minInt, maxInt] <;> omega
  unfold clamp; split
  · omega
  · split <;> omega

/-- A value already in the range is its own clamp. -/
theorem clamp_of_mem {sg : Sign} {bits : Nat} {v : Int} (h : minInt sg bits ≤ v) (h' : v ≤ maxInt sg bits) :
    clamp sg bits v = v := by
  unfold clamp; split
  · omega
  · split <;> omega

/-! ## Bits -/

@[simp] theorem getLsbD_lowBits (bits : Nat) {n : Nat} (x : BitVec n) (k : Nat) :
    (lowBits bits x).getLsbD k = (decide (k < bits) && x.getLsbD k) := by
  simp [lowBits]

/-- Each bit of an extension of a vector of at least one bit. -/
theorem getLsbD_extend (sg : Sign) (n : Nat) {bits : Nat} (y : BitVec bits) (k : Nat) (hk : k < n) :
    (extend sg n y).getLsbD k =
      if k < bits then y.getLsbD k else (decide (sg = .i) && y.msb) := by
  cases sg
  · simp only [extend, BitVec.getLsbD_setWidth]
    split
    · simp [hk]
    · rw [BitVec.getLsbD_of_ge _ _ (by omega)]; simp
  · simp only [extend, BitVec.getLsbD_signExtend]; simp [hk]

@[simp] theorem getLsbD_ofBits (f : Nat → Bool) (n k : Nat) : (ofBits f n).getLsbD k = (decide (k < n) && f k) := by
  induction n with
  | zero => simp [ofBits]
  | succ n ih =>
    rw [ofBits, BitVec.getLsbD_cons, ih]
    rcases Nat.lt_trichotomy k n with h | rfl | h
    · simp [show k ≠ n by omega, h, show k < n + 1 by omega]
    · simp
    · simp [show k ≠ n by omega, show ¬k < n by omega, show ¬k < n + 1 by omega]

/-- What `highestOne` finds. -/
theorem highestOne_spec {n : Nat} (x : BitVec n) (m : Nat) :
    match highestOne x m with
    | some k => k < m ∧ x.getLsbD k = true ∧ ∀ j, k < j → j < m → x.getLsbD j = false
    | none => ∀ j, j < m → x.getLsbD j = false := by
  induction m with
  | zero => simp [highestOne]
  | succ m ih =>
    unfold highestOne
    by_cases h : x.getLsbD m = true
    · rw [if_pos h]; exact ⟨by omega, h, fun j h1 h2 => absurd h1 (by omega)⟩
    · rw [if_neg h]
      simp only [Bool.not_eq_true] at h
      cases hm : highestOne x m with
      | none =>
        rw [hm] at ih; intro j hj
        rcases Nat.lt_succ_iff_lt_or_eq.mp hj with h1 | rfl
        · exact ih j h1
        · exact h
      | some k =>
        rw [hm] at ih; obtain ⟨h1, h2, h3⟩ := ih
        refine ⟨by omega, h2, fun j hj hj' => ?_⟩
        rcases Nat.lt_succ_iff_lt_or_eq.mp hj' with h4 | rfl
        · exact h3 j hj h4
        · exact h

/-- What `lowestOne` finds. -/
theorem lowestOne_spec {n : Nat} (x : BitVec n) (m : Nat) :
    match lowestOne x m with
    | some k => k < m ∧ x.getLsbD k = true ∧ ∀ j, j < k → x.getLsbD j = false
    | none => ∀ j, j < m → x.getLsbD j = false := by
  induction m with
  | zero => simp [lowestOne]
  | succ m ih =>
    unfold lowestOne
    cases hm : lowestOne x m with
    | some k =>
      rw [hm] at ih; obtain ⟨h1, h2, h3⟩ := ih
      exact ⟨by omega, h2, h3⟩
    | none =>
      rw [hm] at ih
      by_cases h : x.getLsbD m = true
      · simp only [Option.none_or, if_pos h]; exact ⟨by omega, h, ih⟩
      · simp only [Option.none_or, if_neg h]
        intro j hj
        rcases Nat.lt_succ_iff_lt_or_eq.mp hj with h1 | rfl
        · exact ih j h1
        · simpa using h

/-- A count of bits is at most their number. -/
theorem onesBelow_le {n : Nat} (x : BitVec n) (m : Nat) : onesBelow x m ≤ m := by
  induction m with
  | zero => simp [onesBelow]
  | succ m ih => unfold onesBelow; have := Bool.toNat_le (x.getLsbD m); omega

end Sys2Proof.Machine
end

