-- ==== Sys2Proof/Tests/Slice0.lean ====
section
/-!
SUPPORT. Tests of single steps, decodings of words written out from 30_encoding.md, refusals of ill-formed terms, and a
witness for each statement of Certificates/Slice0/Obligations.lean that has hypotheses.
-/

open Sys2Proof Sys2Proof.Machine

namespace Sys2Proof.Tests

/-! ## Ill-formed terms are refused (R86, R275) -/

theorem test_wellFormed_accepts : WellFormed (.addoU8 5#8 30#8 1#8) := by decide
theorem test_wellFormed_refuses_bits_zero : ¬WellFormed (.addoU8 0#8 30#8 1#8) := by decide
theorem test_wellFormed_refuses_bits_above_container : ¬WellFormed (.wrapI16 17#8 1#16) := by decide
theorem test_wellFormed_refuses_partial_bytes : ¬WellFormed (.byteswapU32 20#8 1#32) := by decide

/-! ## Decoding (R81 to R90): every row of the opcode map, at BITS = N (0 for the 128-only rows), from the lanes 3 and 2 -/

/-- Each control word decodes, with these lanes, to the instruction beside it. -/
abbrev decodesTo (a b : BitVec 128) (rows : List (ControlWord × Instr)) : Prop :=
  (rows.all fun row => match decode ⟨row.1, a, b⟩ with
    | .ok i => decide (i = row.2)
    | .error _ => false) = true

theorem test_decode_wrap : decodesTo 3#128 2#128 [
    (0x00002000#32, .wrapU8 8#8 0x3#8),
    (0x00004080#32, .wrapU16 16#8 0x3#16),
    (0x00008100#32, .wrapU32 32#8 0x3#32),
    (0x00010180#32, .wrapU64 64#8 0x3#64),
    (0x00020200#32, .wrapU128 128#8 0x3#128),
    (0x00002040#32, .wrapI8 8#8 0x3#8),
    (0x000040C0#32, .wrapI16 16#8 0x3#16),
    (0x00008140#32, .wrapI32 32#8 0x3#32),
    (0x000101C0#32, .wrapI64 64#8 0x3#64),
    (0x00020240#32, .wrapI128 128#8 0x3#128)] := by
  decide

theorem test_decode_not : decodesTo 3#128 2#128 [
    (0x00002001#32, .notU8 8#8 0x3#8),
    (0x00004081#32, .notU16 16#8 0x3#16),
    (0x00008101#32, .notU32 32#8 0x3#32),
    (0x00010181#32, .notU64 64#8 0x3#64),
    (0x00020201#32, .notU128 128#8 0x3#128),
    (0x00002041#32, .notI8 8#8 0x3#8),
    (0x000040C1#32, .notI16 16#8 0x3#16),
    (0x00008141#32, .notI32 32#8 0x3#32),
    (0x000101C1#32, .notI64 64#8 0x3#64),
    (0x00020241#32, .notI128 128#8 0x3#128)] := by
  decide

theorem test_decode_and : decodesTo 3#128 2#128 [
    (0x00002002#32, .andU8 8#8 0x3#8 0x2#8),
    (0x00004082#32, .andU16 16#8 0x3#16 0x2#16),
    (0x00008102#32, .andU32 32#8 0x3#32 0x2#32),
    (0x00010182#32, .andU64 64#8 0x3#64 0x2#64),
    (0x00020202#32, .andU128 128#8 0x3#128 0x2#128),
    (0x00002042#32, .andI8 8#8 0x3#8 0x2#8),
    (0x000040C2#32, .andI16 16#8 0x3#16 0x2#16),
    (0x00008142#32, .andI32 32#8 0x3#32 0x2#32),
    (0x000101C2#32, .andI64 64#8 0x3#64 0x2#64),
    (0x00020242#32, .andI128 128#8 0x3#128 0x2#128)] := by
  decide

theorem test_decode_or : decodesTo 3#128 2#128 [
    (0x00002003#32, .orU8 8#8 0x3#8 0x2#8),
    (0x00004083#32, .orU16 16#8 0x3#16 0x2#16),
    (0x00008103#32, .orU32 32#8 0x3#32 0x2#32),
    (0x00010183#32, .orU64 64#8 0x3#64 0x2#64),
    (0x00020203#32, .orU128 128#8 0x3#128 0x2#128),
    (0x00002043#32, .orI8 8#8 0x3#8 0x2#8),
    (0x000040C3#32, .orI16 16#8 0x3#16 0x2#16),
    (0x00008143#32, .orI32 32#8 0x3#32 0x2#32),
    (0x000101C3#32, .orI64 64#8 0x3#64 0x2#64),
    (0x00020243#32, .orI128 128#8 0x3#128 0x2#128)] := by
  decide

theorem test_decode_xor : decodesTo 3#128 2#128 [
    (0x00002004#32, .xorU8 8#8 0x3#8 0x2#8),
    (0x00004084#32, .xorU16 16#8 0x3#16 0x2#16),
    (0x00008104#32, .xorU32 32#8 0x3#32 0x2#32),
    (0x00010184#32, .xorU64 64#8 0x3#64 0x2#64),
    (0x00020204#32, .xorU128 128#8 0x3#128 0x2#128),
    (0x00002044#32, .xorI8 8#8 0x3#8 0x2#8),
    (0x000040C4#32, .xorI16 16#8 0x3#16 0x2#16),
    (0x00008144#32, .xorI32 32#8 0x3#32 0x2#32),
    (0x000101C4#32, .xorI64 64#8 0x3#64 0x2#64),
    (0x00020244#32, .xorI128 128#8 0x3#128 0x2#128)] := by
  decide

theorem test_decode_shl : decodesTo 3#128 2#128 [
    (0x00002005#32, .shlU8 8#8 0x3#8 0x2#8),
    (0x00004085#32, .shlU16 16#8 0x3#16 0x2#8),
    (0x00008105#32, .shlU32 32#8 0x3#32 0x2#8),
    (0x00010185#32, .shlU64 64#8 0x3#64 0x2#8),
    (0x00020205#32, .shlU128 128#8 0x3#128 0x2#8),
    (0x00002045#32, .shlI8 8#8 0x3#8 0x2#8),
    (0x000040C5#32, .shlI16 16#8 0x3#16 0x2#8),
    (0x00008145#32, .shlI32 32#8 0x3#32 0x2#8),
    (0x000101C5#32, .shlI64 64#8 0x3#64 0x2#8),
    (0x00020245#32, .shlI128 128#8 0x3#128 0x2#8)] := by
  decide

theorem test_decode_shr : decodesTo 3#128 2#128 [
    (0x00002006#32, .shrU8 8#8 0x3#8 0x2#8),
    (0x00004086#32, .shrU16 16#8 0x3#16 0x2#8),
    (0x00008106#32, .shrU32 32#8 0x3#32 0x2#8),
    (0x00010186#32, .shrU64 64#8 0x3#64 0x2#8),
    (0x00020206#32, .shrU128 128#8 0x3#128 0x2#8),
    (0x00002046#32, .shrI8 8#8 0x3#8 0x2#8),
    (0x000040C6#32, .shrI16 16#8 0x3#16 0x2#8),
    (0x00008146#32, .shrI32 32#8 0x3#32 0x2#8),
    (0x000101C6#32, .shrI64 64#8 0x3#64 0x2#8),
    (0x00020246#32, .shrI128 128#8 0x3#128 0x2#8)] := by
  decide

theorem test_decode_addw : decodesTo 3#128 2#128 [
    (0x00002008#32, .addwU8 8#8 0x3#8 0x2#8),
    (0x00004088#32, .addwU16 16#8 0x3#16 0x2#16),
    (0x00008108#32, .addwU32 32#8 0x3#32 0x2#32),
    (0x00010188#32, .addwU64 64#8 0x3#64 0x2#64),
    (0x00020208#32, .addwU128 128#8 0x3#128 0x2#128),
    (0x00002048#32, .addwI8 8#8 0x3#8 0x2#8),
    (0x000040C8#32, .addwI16 16#8 0x3#16 0x2#16),
    (0x00008148#32, .addwI32 32#8 0x3#32 0x2#32),
    (0x000101C8#32, .addwI64 64#8 0x3#64 0x2#64),
    (0x00020248#32, .addwI128 128#8 0x3#128 0x2#128)] := by
  decide

theorem test_decode_subw : decodesTo 3#128 2#128 [
    (0x00002009#32, .subwU8 8#8 0x3#8 0x2#8),
    (0x00004089#32, .subwU16 16#8 0x3#16 0x2#16),
    (0x00008109#32, .subwU32 32#8 0x3#32 0x2#32),
    (0x00010189#32, .subwU64 64#8 0x3#64 0x2#64),
    (0x00020209#32, .subwU128 128#8 0x3#128 0x2#128),
    (0x00002049#32, .subwI8 8#8 0x3#8 0x2#8),
    (0x000040C9#32, .subwI16 16#8 0x3#16 0x2#16),
    (0x00008149#32, .subwI32 32#8 0x3#32 0x2#32),
    (0x000101C9#32, .subwI64 64#8 0x3#64 0x2#64),
    (0x00020249#32, .subwI128 128#8 0x3#128 0x2#128)] := by
  decide

theorem test_decode_mulw : decodesTo 3#128 2#128 [
    (0x0000200A#32, .mulwU8 8#8 0x3#8 0x2#8),
    (0x0000408A#32, .mulwU16 16#8 0x3#16 0x2#16),
    (0x0000810A#32, .mulwU32 32#8 0x3#32 0x2#32),
    (0x0001018A#32, .mulwU64 64#8 0x3#64 0x2#64),
    (0x0002020A#32, .mulwU128 128#8 0x3#128 0x2#128),
    (0x0000204A#32, .mulwI8 8#8 0x3#8 0x2#8),
    (0x000040CA#32, .mulwI16 16#8 0x3#16 0x2#16),
    (0x0000814A#32, .mulwI32 32#8 0x3#32 0x2#32),
    (0x000101CA#32, .mulwI64 64#8 0x3#64 0x2#64),
    (0x0002024A#32, .mulwI128 128#8 0x3#128 0x2#128)] := by
  decide

theorem test_decode_addo : decodesTo 3#128 2#128 [
    (0x0000200C#32, .addoU8 8#8 0x3#8 0x2#8),
    (0x0000408C#32, .addoU16 16#8 0x3#16 0x2#16),
    (0x0000810C#32, .addoU32 32#8 0x3#32 0x2#32),
    (0x0001018C#32, .addoU64 64#8 0x3#64 0x2#64),
    (0x0002020C#32, .addoU128 128#8 0x3#128 0x2#128),
    (0x0000204C#32, .addoI8 8#8 0x3#8 0x2#8),
    (0x000040CC#32, .addoI16 16#8 0x3#16 0x2#16),
    (0x0000814C#32, .addoI32 32#8 0x3#32 0x2#32),
    (0x000101CC#32, .addoI64 64#8 0x3#64 0x2#64),
    (0x0002024C#32, .addoI128 128#8 0x3#128 0x2#128)] := by
  decide

theorem test_decode_subo : decodesTo 3#128 2#128 [
    (0x0000200D#32, .suboU8 8#8 0x3#8 0x2#8),
    (0x0000408D#32, .suboU16 16#8 0x3#16 0x2#16),
    (0x0000810D#32, .suboU32 32#8 0x3#32 0x2#32),
    (0x0001018D#32, .suboU64 64#8 0x3#64 0x2#64),
    (0x0002020D#32, .suboU128 128#8 0x3#128 0x2#128),
    (0x0000204D#32, .suboI8 8#8 0x3#8 0x2#8),
    (0x000040CD#32, .suboI16 16#8 0x3#16 0x2#16),
    (0x0000814D#32, .suboI32 32#8 0x3#32 0x2#32),
    (0x000101CD#32, .suboI64 64#8 0x3#64 0x2#64),
    (0x0002024D#32, .suboI128 128#8 0x3#128 0x2#128)] := by
  decide

theorem test_decode_mulo : decodesTo 3#128 2#128 [
    (0x0000200E#32, .muloU8 8#8 0x3#8 0x2#8),
    (0x0000408E#32, .muloU16 16#8 0x3#16 0x2#16),
    (0x0000810E#32, .muloU32 32#8 0x3#32 0x2#32),
    (0x0001018E#32, .muloU64 64#8 0x3#64 0x2#64),
    (0x0002020E#32, .muloU128 128#8 0x3#128 0x2#128),
    (0x0000204E#32, .muloI8 8#8 0x3#8 0x2#8),
    (0x000040CE#32, .muloI16 16#8 0x3#16 0x2#16),
    (0x0000814E#32, .muloI32 32#8 0x3#32 0x2#32),
    (0x000101CE#32, .muloI64 64#8 0x3#64 0x2#64),
    (0x0002024E#32, .muloI128 128#8 0x3#128 0x2#128)] := by
  decide

theorem test_decode_adds : decodesTo 3#128 2#128 [
    (0x00002010#32, .addsU8 8#8 0x3#8 0x2#8),
    (0x00004090#32, .addsU16 16#8 0x3#16 0x2#16),
    (0x00008110#32, .addsU32 32#8 0x3#32 0x2#32),
    (0x00010190#32, .addsU64 64#8 0x3#64 0x2#64),
    (0x00020210#32, .addsU128 128#8 0x3#128 0x2#128),
    (0x00002050#32, .addsI8 8#8 0x3#8 0x2#8),
    (0x000040D0#32, .addsI16 16#8 0x3#16 0x2#16),
    (0x00008150#32, .addsI32 32#8 0x3#32 0x2#32),
    (0x000101D0#32, .addsI64 64#8 0x3#64 0x2#64),
    (0x00020250#32, .addsI128 128#8 0x3#128 0x2#128)] := by
  decide

theorem test_decode_subs : decodesTo 3#128 2#128 [
    (0x00002011#32, .subsU8 8#8 0x3#8 0x2#8),
    (0x00004091#32, .subsU16 16#8 0x3#16 0x2#16),
    (0x00008111#32, .subsU32 32#8 0x3#32 0x2#32),
    (0x00010191#32, .subsU64 64#8 0x3#64 0x2#64),
    (0x00020211#32, .subsU128 128#8 0x3#128 0x2#128),
    (0x00002051#32, .subsI8 8#8 0x3#8 0x2#8),
    (0x000040D1#32, .subsI16 16#8 0x3#16 0x2#16),
    (0x00008151#32, .subsI32 32#8 0x3#32 0x2#32),
    (0x000101D1#32, .subsI64 64#8 0x3#64 0x2#64),
    (0x00020251#32, .subsI128 128#8 0x3#128 0x2#128)] := by
  decide

theorem test_decode_muls : decodesTo 3#128 2#128 [
    (0x00002012#32, .mulsU8 8#8 0x3#8 0x2#8),
    (0x00004092#32, .mulsU16 16#8 0x3#16 0x2#16),
    (0x00008112#32, .mulsU32 32#8 0x3#32 0x2#32),
    (0x00010192#32, .mulsU64 64#8 0x3#64 0x2#64),
    (0x00020212#32, .mulsU128 128#8 0x3#128 0x2#128),
    (0x00002052#32, .mulsI8 8#8 0x3#8 0x2#8),
    (0x000040D2#32, .mulsI16 16#8 0x3#16 0x2#16),
    (0x00008152#32, .mulsI32 32#8 0x3#32 0x2#32),
    (0x000101D2#32, .mulsI64 64#8 0x3#64 0x2#64),
    (0x00020252#32, .mulsI128 128#8 0x3#128 0x2#128)] := by
  decide

theorem test_decode_div_trunc : decodesTo 3#128 2#128 [
    (0x00002014#32, .divTruncU8 8#8 0x3#8 0x2#8),
    (0x00004094#32, .divTruncU16 16#8 0x3#16 0x2#16),
    (0x00008114#32, .divTruncU32 32#8 0x3#32 0x2#32),
    (0x00010194#32, .divTruncU64 64#8 0x3#64 0x2#64),
    (0x00020214#32, .divTruncU128 128#8 0x3#128 0x2#128),
    (0x00002054#32, .divTruncI8 8#8 0x3#8 0x2#8),
    (0x000040D4#32, .divTruncI16 16#8 0x3#16 0x2#16),
    (0x00008154#32, .divTruncI32 32#8 0x3#32 0x2#32),
    (0x000101D4#32, .divTruncI64 64#8 0x3#64 0x2#64),
    (0x00020254#32, .divTruncI128 128#8 0x3#128 0x2#128)] := by
  decide

theorem test_decode_rem : decodesTo 3#128 2#128 [
    (0x00002015#32, .remU8 8#8 0x3#8 0x2#8),
    (0x00004095#32, .remU16 16#8 0x3#16 0x2#16),
    (0x00008115#32, .remU32 32#8 0x3#32 0x2#32),
    (0x00010195#32, .remU64 64#8 0x3#64 0x2#64),
    (0x00020215#32, .remU128 128#8 0x3#128 0x2#128),
    (0x00002055#32, .remI8 8#8 0x3#8 0x2#8),
    (0x000040D5#32, .remI16 16#8 0x3#16 0x2#16),
    (0x00008155#32, .remI32 32#8 0x3#32 0x2#32),
    (0x000101D5#32, .remI64 64#8 0x3#64 0x2#64),
    (0x00020255#32, .remI128 128#8 0x3#128 0x2#128)] := by
  decide

theorem test_decode_div_floor : decodesTo 3#128 2#128 [
    (0x00002016#32, .divFloorU8 8#8 0x3#8 0x2#8),
    (0x00004096#32, .divFloorU16 16#8 0x3#16 0x2#16),
    (0x00008116#32, .divFloorU32 32#8 0x3#32 0x2#32),
    (0x00010196#32, .divFloorU64 64#8 0x3#64 0x2#64),
    (0x00020216#32, .divFloorU128 128#8 0x3#128 0x2#128),
    (0x00002056#32, .divFloorI8 8#8 0x3#8 0x2#8),
    (0x000040D6#32, .divFloorI16 16#8 0x3#16 0x2#16),
    (0x00008156#32, .divFloorI32 32#8 0x3#32 0x2#32),
    (0x000101D6#32, .divFloorI64 64#8 0x3#64 0x2#64),
    (0x00020256#32, .divFloorI128 128#8 0x3#128 0x2#128)] := by
  decide

theorem test_decode_mod : decodesTo 3#128 2#128 [
    (0x00002017#32, .modU8 8#8 0x3#8 0x2#8),
    (0x00004097#32, .modU16 16#8 0x3#16 0x2#16),
    (0x00008117#32, .modU32 32#8 0x3#32 0x2#32),
    (0x00010197#32, .modU64 64#8 0x3#64 0x2#64),
    (0x00020217#32, .modU128 128#8 0x3#128 0x2#128),
    (0x00002057#32, .modI8 8#8 0x3#8 0x2#8),
    (0x000040D7#32, .modI16 16#8 0x3#16 0x2#16),
    (0x00008157#32, .modI32 32#8 0x3#32 0x2#32),
    (0x000101D7#32, .modI64 64#8 0x3#64 0x2#64),
    (0x00020257#32, .modI128 128#8 0x3#128 0x2#128)] := by
  decide

theorem test_decode_clz : decodesTo 3#128 2#128 [
    (0x00002018#32, .clzU8 8#8 0x3#8),
    (0x00004098#32, .clzU16 16#8 0x3#16),
    (0x00008118#32, .clzU32 32#8 0x3#32),
    (0x00010198#32, .clzU64 64#8 0x3#64),
    (0x00020218#32, .clzU128 128#8 0x3#128),
    (0x00002058#32, .clzI8 8#8 0x3#8),
    (0x000040D8#32, .clzI16 16#8 0x3#16),
    (0x00008158#32, .clzI32 32#8 0x3#32),
    (0x000101D8#32, .clzI64 64#8 0x3#64),
    (0x00020258#32, .clzI128 128#8 0x3#128)] := by
  decide

theorem test_decode_ctz : decodesTo 3#128 2#128 [
    (0x00002019#32, .ctzU8 8#8 0x3#8),
    (0x00004099#32, .ctzU16 16#8 0x3#16),
    (0x00008119#32, .ctzU32 32#8 0x3#32),
    (0x00010199#32, .ctzU64 64#8 0x3#64),
    (0x00020219#32, .ctzU128 128#8 0x3#128),
    (0x00002059#32, .ctzI8 8#8 0x3#8),
    (0x000040D9#32, .ctzI16 16#8 0x3#16),
    (0x00008159#32, .ctzI32 32#8 0x3#32),
    (0x000101D9#32, .ctzI64 64#8 0x3#64),
    (0x00020259#32, .ctzI128 128#8 0x3#128)] := by
  decide

theorem test_decode_popcount : decodesTo 3#128 2#128 [
    (0x0000201A#32, .popcountU8 8#8 0x3#8),
    (0x0000409A#32, .popcountU16 16#8 0x3#16),
    (0x0000811A#32, .popcountU32 32#8 0x3#32),
    (0x0001019A#32, .popcountU64 64#8 0x3#64),
    (0x0002021A#32, .popcountU128 128#8 0x3#128),
    (0x0000205A#32, .popcountI8 8#8 0x3#8),
    (0x000040DA#32, .popcountI16 16#8 0x3#16),
    (0x0000815A#32, .popcountI32 32#8 0x3#32),
    (0x000101DA#32, .popcountI64 64#8 0x3#64),
    (0x0002025A#32, .popcountI128 128#8 0x3#128)] := by
  decide

theorem test_decode_byteswap : decodesTo 3#128 2#128 [
    (0x0000201B#32, .byteswapU8 8#8 0x3#8),
    (0x0000409B#32, .byteswapU16 16#8 0x3#16),
    (0x0000811B#32, .byteswapU32 32#8 0x3#32),
    (0x0001019B#32, .byteswapU64 64#8 0x3#64),
    (0x0002021B#32, .byteswapU128 128#8 0x3#128),
    (0x0000205B#32, .byteswapI8 8#8 0x3#8),
    (0x000040DB#32, .byteswapI16 16#8 0x3#16),
    (0x0000815B#32, .byteswapI32 32#8 0x3#32),
    (0x000101DB#32, .byteswapI64 64#8 0x3#64),
    (0x0002025B#32, .byteswapI128 128#8 0x3#128)] := by
  decide

theorem test_decode_bitreverse : decodesTo 3#128 2#128 [
    (0x0000201C#32, .bitreverseU8 8#8 0x3#8),
    (0x0000409C#32, .bitreverseU16 16#8 0x3#16),
    (0x0000811C#32, .bitreverseU32 32#8 0x3#32),
    (0x0001019C#32, .bitreverseU64 64#8 0x3#64),
    (0x0002021C#32, .bitreverseU128 128#8 0x3#128),
    (0x0000205C#32, .bitreverseI8 8#8 0x3#8),
    (0x000040DC#32, .bitreverseI16 16#8 0x3#16),
    (0x0000815C#32, .bitreverseI32 32#8 0x3#32),
    (0x000101DC#32, .bitreverseI64 64#8 0x3#64),
    (0x0002025C#32, .bitreverseI128 128#8 0x3#128)] := by
  decide

theorem test_decode_make : decodesTo 3#128 2#128 [
    (0x00000220#32, .makeU128 0x3#64 0x2#64),
    (0x00000260#32, .makeI128 0x3#64 0x2#64)] := by
  decide

theorem test_decode_hi : decodesTo 3#128 2#128 [
    (0x00000221#32, .hiU128 0x3#128),
    (0x00000261#32, .hiI128 0x3#128)] := by
  decide

theorem test_decode_lo : decodesTo 3#128 2#128 [
    (0x00000222#32, .loU128 0x3#128),
    (0x00000262#32, .loI128 0x3#128)] := by
  decide

theorem test_decode_cmp : decodesTo 3#128 2#128 [
    (0x00000223#32, .cmpU128 0x3#128 0x2#128),
    (0x00000263#32, .cmpI128 0x3#128 0x2#128)] := by
  decide

/-! ## One request (95_test_vectors.md), in a state whose latches are full -/

/-- An unfaulted state with a value in both latches. -/
def fullState : State := { State.reset with res := some ⟨16, 3#16⟩, ovf := some true }

/-- What an instruction leaves in RES, OVF and FAULT. -/
def answer (i : Instr) : Option (Option Latch × Option Bool × BitVec 8) :=
  match exec i fullState with
  | .next t => some (t.res, t.ovf, t.fault)
  | _ => none

theorem test_wrap_i8 : answer (.wrapI8 5#8 0x1F#8) = some (some ⟨8, 0xFF#8⟩, none, 0x00#8) := by decide

theorem test_wrap_i16 : answer (.wrapI16 1#8 0x1#16) = some (some ⟨16, 0xFFFF#16⟩, none, 0x00#8) := by decide

theorem test_not_u16 : answer (.notU16 12#8 0xFFF#16) = some (some ⟨16, 0x0#16⟩, none, 0x00#8) := by decide

theorem test_not_i8 : answer (.notI8 8#8 0x80#8) = some (some ⟨8, 0x7F#8⟩, none, 0x00#8) := by decide

theorem test_and_u8 : answer (.andU8 8#8 0xF0#8 0x3C#8) = some (some ⟨8, 0x30#8⟩, none, 0x00#8) := by decide

theorem test_and_u8_2 : answer (.andU8 4#8 0x1#8 0x10#8) = some (none, none, 0x05#8) := by decide

theorem test_or_i8 : answer (.orI8 4#8 0xF8#8 0x7#8) = some (some ⟨8, 0xFF#8⟩, none, 0x00#8) := by decide

theorem test_or_i32 : answer (.orI32 1#8 0xFFFFFFFF#32 0x0#32) = some (some ⟨32, 0xFFFFFFFF#32⟩, none, 0x00#8) := by decide

theorem test_xor_i8 : answer (.xorI8 5#8 0xF0#8 0xF#8) = some (some ⟨8, 0xFF#8⟩, none, 0x00#8) := by decide

theorem test_xor_u128 : answer (.xorU128 128#8 0xFFFFFFFFFFFFFFFFFFFFFFFFFFFFFFFF#128 0xFFFFFFFFFFFFFFFF#128) = some (some ⟨128, 0xFFFFFFFFFFFFFFFF0000000000000000#128⟩, none, 0x00#8) := by decide

theorem test_shl_u128 : answer (.shlU128 128#8 0xF08000000000000001#128 0x41#8) = some (some ⟨128, 0x20000000000000000#128⟩, none, 0x00#8) := by decide

theorem test_shl_u128_2 : answer (.shlU128 128#8 0xF08000000000000001#128 0x80#8) = some (none, none, 0x06#8) := by decide

theorem test_shr_u128 : answer (.shrU128 128#8 0xF08000000000000001#128 0x40#8) = some (some ⟨128, 0xF0#128⟩, none, 0x00#8) := by decide

theorem test_shr_i128 : answer (.shrI128 128#8 0x80000000000000000000000000000010#128 0x40#8) = some (some ⟨128, 0xFFFFFFFFFFFFFFFF8000000000000000#128⟩, none, 0x00#8) := by decide

theorem test_addw_i8 : answer (.addwI8 8#8 0x7F#8 0x1#8) = some (some ⟨8, 0x80#8⟩, none, 0x00#8) := by decide

theorem test_addw_u16 : answer (.addwU16 10#8 0x3E8#16 0x64#16) = some (some ⟨16, 0x4C#16⟩, none, 0x00#8) := by decide

theorem test_subw_i8 : answer (.subwI8 8#8 0x0#8 0x80#8) = some (some ⟨8, 0x80#8⟩, none, 0x00#8) := by decide

theorem test_subw_u8 : answer (.subwU8 8#8 0x0#8 0x1#8) = some (some ⟨8, 0xFF#8⟩, none, 0x00#8) := by decide

theorem test_mulw_i128 : answer (.mulwI128 128#8 0x10000000000000000#128 0xFFFFFFFFFFFFFFFFFFFFFFFFFFFFFFFF#128) = some (some ⟨128, 0xFFFFFFFFFFFFFFFF0000000000000000#128⟩, none, 0x00#8) := by decide

theorem test_mulw_u8 : answer (.mulwU8 8#8 0xF#8 0x11#8) = some (some ⟨8, 0xFF#8⟩, none, 0x00#8) := by decide

theorem test_addo_u8 : answer (.addoU8 5#8 0x1F#8 0x1#8) = some (some ⟨8, 0x0#8⟩, some true, 0x00#8) := by decide

theorem test_addo_i8 : answer (.addoI8 5#8 0xF0#8 0xFF#8) = some (some ⟨8, 0xF#8⟩, some true, 0x00#8) := by decide

theorem test_subo_i8 : answer (.suboI8 8#8 0xFF#8 0x80#8) = some (some ⟨8, 0x7F#8⟩, some false, 0x00#8) := by decide

theorem test_subo_u32 : answer (.suboU32 20#8 0x0#32 0x1#32) = some (some ⟨32, 0xFFFFF#32⟩, some true, 0x00#8) := by decide

theorem test_mulo_i8 : answer (.muloI8 8#8 0x80#8 0xFF#8) = some (some ⟨8, 0x80#8⟩, some true, 0x00#8) := by decide

theorem test_mulo_i64 : answer (.muloI64 64#8 0xFFFFFFFF80000000#64 0x100000000#64) = some (some ⟨64, 0x8000000000000000#64⟩, some false, 0x00#8) := by decide

theorem test_adds_i8 : answer (.addsI8 8#8 0x9C#8 0x9C#8) = some (some ⟨8, 0x80#8⟩, none, 0x00#8) := by decide

theorem test_adds_u8 : answer (.addsU8 8#8 0xFF#8 0x1#8) = some (some ⟨8, 0xFF#8⟩, none, 0x00#8) := by decide

theorem test_subs_i8 : answer (.subsI8 8#8 0x0#8 0x80#8) = some (some ⟨8, 0x7F#8⟩, none, 0x00#8) := by decide

theorem test_subs_u8 : answer (.subsU8 8#8 0x5#8 0x6#8) = some (some ⟨8, 0x0#8⟩, none, 0x00#8) := by decide

theorem test_muls_i8 : answer (.mulsI8 1#8 0xFF#8 0xFF#8) = some (some ⟨8, 0x0#8⟩, none, 0x00#8) := by decide

theorem test_muls_i16 : answer (.mulsI16 16#8 0xFFFF#16 0x8000#16) = some (some ⟨16, 0x7FFF#16⟩, none, 0x00#8) := by decide

theorem test_div_trunc_i8 : answer (.divTruncI8 8#8 0xF9#8 0x2#8) = some (some ⟨8, 0xFD#8⟩, none, 0x00#8) := by decide

theorem test_div_trunc_i128 : answer (.divTruncI128 128#8 0x80000000000000000000000000000000#128 0xFFFFFFFFFFFFFFFFFFFFFFFFFFFFFFFF#128) = some (none, none, 0x08#8) := by decide

theorem test_rem_i8 : answer (.remI8 8#8 0xF9#8 0x2#8) = some (some ⟨8, 0xFF#8⟩, none, 0x00#8) := by decide

theorem test_rem_i64 : answer (.remI64 64#8 0x7#64 0xFFFFFFFFFFFFFFFE#64) = some (some ⟨64, 0x1#64⟩, none, 0x00#8) := by decide

theorem test_div_floor_i8 : answer (.divFloorI8 8#8 0x7#8 0xFE#8) = some (some ⟨8, 0xFC#8⟩, none, 0x00#8) := by decide

theorem test_div_floor_i16 : answer (.divFloorI16 16#8 0xFFF9#16 0x2#16) = some (some ⟨16, 0xFFFC#16⟩, none, 0x00#8) := by decide

theorem test_mod_i8 : answer (.modI8 8#8 0x7#8 0xFE#8) = some (some ⟨8, 0xFF#8⟩, none, 0x00#8) := by decide

theorem test_mod_i32 : answer (.modI32 32#8 0xFFFFFFF9#32 0x2#32) = some (some ⟨32, 0x1#32⟩, none, 0x00#8) := by decide

theorem test_clz_u8 : answer (.clzU8 5#8 0x1#8) = some (some ⟨8, 0x4#8⟩, none, 0x00#8) := by decide

theorem test_clz_u128 : answer (.clzU128 128#8 0x0#128) = some (some ⟨8, 0x80#8⟩, none, 0x00#8) := by decide

theorem test_ctz_i8 : answer (.ctzI8 5#8 0xF0#8) = some (some ⟨8, 0x4#8⟩, none, 0x00#8) := by decide

theorem test_ctz_u64 : answer (.ctzU64 64#8 0x0#64) = some (some ⟨8, 0x40#8⟩, none, 0x00#8) := by decide

theorem test_popcount_i8 : answer (.popcountI8 5#8 0xFF#8) = some (some ⟨8, 0x5#8⟩, none, 0x00#8) := by decide

theorem test_popcount_u16 : answer (.popcountU16 16#8 0xAAAA#16) = some (some ⟨8, 0x8#8⟩, none, 0x00#8) := by decide

theorem test_byteswap_i32 : answer (.byteswapI32 24#8 0x123456#32) = some (some ⟨32, 0x563412#32⟩, none, 0x00#8) := by decide

theorem test_byteswap_u32 : answer (.byteswapU32 32#8 0x11223344#32) = some (some ⟨32, 0x44332211#32⟩, none, 0x00#8) := by decide

theorem test_bitreverse_i8 : answer (.bitreverseI8 5#8 0x1#8) = some (some ⟨8, 0xF0#8⟩, none, 0x00#8) := by decide

set_option maxRecDepth 2000 in
theorem test_bitreverse_i64 : answer (.bitreverseI64 64#8 0xF1#64) = some (some ⟨64, 0x8F00000000000000#64⟩, none, 0x00#8) := by decide

theorem test_make_u128 : answer (.makeU128 0x123456789ABCDEF#64 0xFEDCBA9876543210#64) = some (some ⟨128, 0x123456789ABCDEFFEDCBA9876543210#128⟩, none, 0x00#8) := by decide

theorem test_make_i128 : answer (.makeI128 0x8000000000000000#64 0x0#64) = some (some ⟨128, 0x80000000000000000000000000000000#128⟩, none, 0x00#8) := by decide

theorem test_hi_u128 : answer (.hiU128 0x123456789ABCDEFFEDCBA9876543210#128) = some (some ⟨64, 0x123456789ABCDEF#64⟩, none, 0x00#8) := by decide

theorem test_hi_i128 : answer (.hiI128 0x80000000000000000000000000000000#128) = some (some ⟨64, 0x8000000000000000#64⟩, none, 0x00#8) := by decide

theorem test_lo_u128 : answer (.loU128 0x123456789ABCDEFFEDCBA9876543210#128) = some (some ⟨64, 0xFEDCBA9876543210#64⟩, none, 0x00#8) := by decide

theorem test_lo_i128 : answer (.loI128 0xFFFFFFFFFFFFFFFFFFFFFFFFFFFFFFFF#128) = some (some ⟨64, 0xFFFFFFFFFFFFFFFF#64⟩, none, 0x00#8) := by decide

theorem test_cmp_i128 : answer (.cmpI128 0x80000000000000000000000000000000#128 0x7FFFFFFFFFFFFFFFFFFFFFFFFFFFFFFF#128) = some (some ⟨8, 0xFF#8⟩, none, 0x00#8) := by decide

theorem test_cmp_u128 : answer (.cmpU128 0x80000000000000000000000000000000#128 0x7FFFFFFFFFFFFFFFFFFFFFFFFFFFFFFF#128) = some (some ⟨8, 0x1#8⟩, none, 0x00#8) := by decide

/-! ## Words written bit by bit (R81: RSV, BITS, W, S, OP), and the requests of instructions -/

theorem test_bits_wrap_u16 : decodesTo 0xFFFF#128 0#128
    [(0b00000000000000_00001001_001_0_000000#32, .wrapU16 9#8 0xFFFF#16)] := by decide
theorem test_bits_mulw_i64 : decodesTo 5#128 6#128
    [(0b00000000000000_01000000_011_1_001010#32, .mulwI64 64#8 5#64 6#64)] := by decide
theorem test_bits_addo_u8 : decodesTo 30#128 1#128
    [(0b00000000000000_00000101_000_0_001100#32, .addoU8 5#8 30#8 1#8)] := by decide
theorem test_bits_subs_i32 : decodesTo 1#128 2#128
    [(0b00000000000000_00100000_010_1_010001#32, .subsI32 32#8 1#32 2#32)] := by decide
theorem test_bits_mod_i128 : decodesTo 7#128 3#128
    [(0b00000000000000_10000000_100_1_010111#32, .modI128 128#8 7#128 3#128)] := by decide
theorem test_bits_bitreverse_u8 : decodesTo 1#128 0#128
    [(0b00000000000000_00001000_000_0_011100#32, .bitreverseU8 8#8 1#8)] := by decide
theorem test_bits_cmp_i128 : decodesTo 1#128 2#128
    [(0b00000000000000_00000000_100_1_100011#32, .cmpI128 1#128 2#128)] := by decide

theorem test_encode_div_floor :
    encode (.divFloorI64 64#8 (-7#64) 2#64) = ⟨0x000101D6#32, 0xFFFFFFFFFFFFFFF9#128, 2#128⟩ := by decide
theorem test_encode_shl : encode (.shlU128 128#8 9#128 64#8) = ⟨0x00020205#32, 9#128, 64#128⟩ := by decide

/-- The fault a request's decoding is refused with. -/
noncomputable def refusedWith (cw : ControlWord) : Option FaultCode :=
  match decode ⟨cw, 1#128, 1#128⟩ with
  | .ok _ => none
  | .error c => some c

theorem test_refuses_reserved_bits : refusedWith 0x0004140C#32 = some .illegalEncoding := by decide
theorem test_refuses_width_five : refusedWith 0x00002280#32 = some .illegalEncoding := by decide
theorem test_refuses_reserved_ops :
    refusedWith 0x0000200F#32 = some .reservedOp ∧ refusedWith 0x00020253#32 = some .reservedOp := by decide
theorem test_refuses_unlisted_ops :
    refusedWith 0x00002007#32 = some .illegalEncoding ∧ refusedWith 0x0000203F#32 = some .illegalEncoding := by decide
theorem test_refuses_make_at_64 : refusedWith 0x000001A0#32 = some .illegalEncoding := by decide
theorem test_refuses_lo_with_bits : refusedWith 0x00010222#32 = some .illegalEncoding := by decide
theorem test_refuses_reserved_op_with_reserved_bits : refusedWith 0x0004000F#32 = some .illegalEncoding := by decide

theorem test_table_word : decodeTableWord 32 0x0000140C = some (.addoU8 5#8 0#8 0#8) := by decide

/-! ## Steps: a request, a rejected one, reads, reset, a faulted block -/

/-- What a step leaves in RES, OVF, FAULT and as the value read, and how many actions the host has left. -/
def seen (s : State) : Option (Option Latch × Option Bool × BitVec 8 × Option ReadValue × Nat) :=
  match step s with
  | .next t => some (t.res, t.ovf, t.fault, t.readValue, t.host.length)
  | _ => none

/-- What a step stops with. -/
def stopped (s : State) : Option Fault :=
  match step s with
  | .fault f => some f
  | _ => none

theorem test_step_runs_request :
    seen { fullState with host := [.request ⟨0x0000140C#32, 0x1F#128, 0xF01#128⟩, .reset] } =
      some (some ⟨8, 0x00#8⟩, some true, 0x00#8, none, 1) := by decide
theorem test_step_runs_fetched_word :
    seen (State.reset.withFetchWord 32 0x00000222) = some (some ⟨64, 0#64⟩, none, 0x00#8, none, 0) := by decide
theorem test_step_rejects_illegal_word :
    seen { fullState with host := [.request ⟨0x00002007#32, 1#128, 1#128⟩] } = some (none, none, 0x01#8, none, 0) := by decide
theorem test_step_rejects_reserved_op :
    seen { fullState with host := [.request ⟨0x0000200F#32, 1#128, 1#128⟩] } = some (none, none, 0x02#8, none, 0) := by decide
theorem test_read_res : seen { fullState with host := [.read 0#8] } =
    some (some ⟨16, 3#16⟩, some true, 0x00#8, some (.latch ⟨16, 3#16⟩), 0) := by decide
theorem test_read_ovf : seen { fullState with host := [.read 1#8] } =
    some (some ⟨16, 3#16⟩, some true, 0x00#8, some (.flag true), 0) := by decide
theorem test_read_empty_res : seen { State.reset with host := [.read 0#8] } = some (none, none, 0x09#8, none, 0) := by decide
theorem test_read_unlisted : seen { fullState with host := [.read 4#8] } = some (none, none, 0x09#8, none, 0) := by decide
theorem test_read_fault_when_faulted : seen { State.reset with fault := 0x05#8, host := [.read 2#8] } =
    some (none, none, 0x05#8, some (.byte 0x05#8), 0) := by decide
theorem test_bad_read_keeps_first_code : seen { State.reset with fault := 0x05#8, host := [.read 0#8] } =
    some (none, none, 0x05#8, none, 0) := by decide
theorem test_cfg_byte : cfgByte ⟨true, false, true, false, false, true, true⟩ = 0x65#8 := by decide
theorem test_reset_clears : seen { fullState with fault := 0x07#8, host := [.reset, .reset] } =
    some (none, none, 0x00#8, none, 1) := by decide
theorem test_faulted_accepts_no_request :
    stopped { State.reset with fault := 0x01#8, host := [.request ⟨0x0000140C#32, 1#128, 1#128⟩] } =
      some .requestNotAccepted := by decide
theorem test_faulted_idle : stopped { State.reset with fault := 0x01#8 } = some .faultedIdle := by decide

/-! ## Assembler lines (R96, R98) -/

theorem test_assembles_addo : assembleText "addo_u8 5, 30, 1".toList = some ⟨0x0000140C#32, 30#128, 1#128⟩ := by decide
theorem test_assembles_div_floor : assembleText "div_floor_i64 64, -7, 2".toList =
    some ⟨0x000101D6#32, 0xFFFFFFFFFFFFFFF9#128, 2#128⟩ := by decide
theorem test_assembles_make : assembleText "make_i128 0x8000000000000000, 1".toList =
    some ⟨0x00000260#32, 0x8000000000000000#128, 1#128⟩ := by decide
theorem test_assembles_no_wide_pattern : assembleText "clz_u8 5, 0x100".toList = none := by decide


/-! ## Witnesses: each statement's hypotheses are met, clause by clause, at the ends of their ranges -/

/-- The hypotheses of an operation with one checked operand, completing. -/
abbrev Unary (sg : Sign) (w : Width) (bits : BitVec 8) (a : BitVec w.bits) : Prop :=
  LegalWidth w bits ∧ canonical sg bits.toNat a = true

/-- The hypotheses of an operation with two checked operands, completing. -/
abbrev Binary (sg : Sign) (w : Width) (bits : BitVec 8) (a b : BitVec w.bits) : Prop :=
  LegalWidth w bits ∧ canonical sg bits.toNat a = true ∧ canonical sg bits.toNat b = true

/-- The hypotheses of the faulting clauses of an operation with one checked operand. -/
abbrev UnaryFaults : Prop :=
  State.reset.fault = 0x00#8 ∧ ¬LegalWidth .w8 0#8 ∧ ¬LegalWidth .w8 9#8 ∧ ¬LegalWidth .w128 129#8 ∧
    (LegalWidth .w8 5#8 ∧ canonical .u 5 0x20#8 = false) ∧ (LegalWidth .w8 5#8 ∧ canonical .i 5 0x10#8 = false)

/-- The hypotheses of the faulting clauses of an operation with two checked operands. -/
abbrev BinaryFaults : Prop :=
  State.reset.fault = 0x00#8 ∧ ¬LegalWidth .w8 0#8 ∧ ¬LegalWidth .w8 9#8 ∧ ¬LegalWidth .w128 129#8 ∧
    (LegalWidth .w8 5#8 ∧ (canonical .u 5 0x20#8 && canonical .u 5 0x1F#8) = false) ∧
    (LegalWidth .w8 5#8 ∧ (canonical .i 5 0x0F#8 && canonical .i 5 0x10#8) = false)

/-- The hypotheses of the clauses in which a division is defined or faults on its operands. -/
abbrev DivisionCases : Prop :=
  (Binary .u .w8 8#8 7#8 0#8 ∧ val .u 0#8 = 0) ∧
  (Binary .i .w8 1#8 0xFF#8 0xFF#8 ∧ val .i 0xFF#8 = minInt .i 1 ∧ val .i 0xFF#8 = -1) ∧
  (Binary .i .w128 128#8 (BitVec.intMin 128) (-1#128) ∧ val .i (BitVec.intMin 128) = minInt .i 128 ∧ val .i (-1#128) = -1) ∧
  (Binary .i .w8 8#8 0x80#8 0x02#8 ∧ val .i 0x02#8 ≠ 0 ∧
    ¬(Sign.i = .i ∧ val .i 0x80#8 = minInt .i 8 ∧ val .i 0x02#8 = -1)) ∧
  (Binary .i .w8 8#8 0x81#8 0xFF#8 ∧ val .i 0xFF#8 ≠ 0 ∧
    ¬(Sign.i = .i ∧ val .i 0x81#8 = minInt .i 8 ∧ val .i 0xFF#8 = -1)) ∧
  (Binary .u .w64 64#8 5#64 5#64 ∧ val .u 5#64 ≠ 0 ∧ ¬(Sign.u = .i ∧ val .u 5#64 = minInt .i 64 ∧ val .u 5#64 = -1))

theorem witness_WrapMasksOrSignExtends :
    State.reset.fault = 0x00#8 ∧ ¬LegalWidth .w8 0#8 ∧ ¬LegalWidth .w64 65#8 ∧ LegalWidth .w8 1#8 ∧
      (LegalWidth .w128 128#8 ∧ (128#8).toNat = Width.w128.bits) := by decide

theorem witness_NotComplementsWithinWidth :
    UnaryFaults ∧ Unary .u .w8 1#8 1#8 ∧ Unary .u .w128 128#8 0#128 ∧
      (Unary .i .w8 5#8 0xF0#8 ∧ (0xF0#8).toInt = minInt .i 5) := by decide

theorem witness_AndIsBitwiseConjunction :
    BinaryFaults ∧ Binary .i .w8 1#8 0xFF#8 0#8 ∧ Binary .u .w128 128#8 (-1#128) 1#128 ∧ Binary .u .w16 9#8 7#16 7#16 := by
  decide

theorem witness_OrIsBitwiseDisjunction :
    BinaryFaults ∧ Binary .i .w8 1#8 0xFF#8 0#8 ∧ Binary .u .w128 128#8 (-1#128) 1#128 ∧ Binary .u .w16 9#8 7#16 7#16 := by
  decide

theorem witness_XorIsBitwiseExclusiveOr :
    BinaryFaults ∧ Binary .i .w8 1#8 0xFF#8 0#8 ∧ Binary .u .w128 128#8 (-1#128) 1#128 ∧ Binary .u .w16 9#8 7#16 7#16 := by
  decide

theorem witness_ShlReducesTheShiftedValue :
    UnaryFaults ∧ (Unary .u .w8 5#8 0x1F#8 ∧ Width.w8.bits ≤ (8#8).toNat) ∧
      (Unary .u .w8 5#8 0x1F#8 ∧ (7#8).toNat < Width.w8.bits ∧ (5#8).toNat ≤ (7#8).toNat) ∧
      (Unary .i .w128 128#8 (-1#128) ∧ (127#8).toNat < Width.w128.bits) ∧
      (Unary .i .w128 128#8 (-1#128) ∧ (0#8).toNat < Width.w128.bits ∧ (0#8).toNat = 0) := by decide

theorem witness_ShrFloorsTheQuotient :
    UnaryFaults ∧ (Unary .u .w8 5#8 0x1F#8 ∧ Width.w8.bits ≤ (8#8).toNat) ∧
      (Unary .i .w8 5#8 0xFF#8 ∧ (5#8).toNat < Width.w8.bits ∧ (5#8).toNat ≤ (5#8).toNat) ∧
      (Unary .i .w128 128#8 (-1#128) ∧ (127#8).toNat < Width.w128.bits) ∧
      (Unary .i .w128 128#8 (-1#128) ∧ (0#8).toNat < Width.w128.bits ∧ (0#8).toNat = 0) := by decide

theorem witness_AddwWrapsTheSum :
    BinaryFaults ∧ (Binary .u .w8 5#8 31#8 1#8 ∧ val .u 31#8 = maxInt .u 5 ∧ val .u 1#8 = 1) ∧
      (Binary .i .w128 128#8 (BitVec.intMax 128) 1#128 ∧ val .i (BitVec.intMax 128) = maxInt .i 128 ∧ val .i 1#128 = 1) ∧
      Binary .i .w8 1#8 0xFF#8 0xFF#8 := by decide

theorem witness_SubwWrapsTheDifference :
    BinaryFaults ∧ (Binary .u .w8 1#8 0#8 1#8 ∧ val .u 0#8 = 0 ∧ val .u 1#8 = 1) ∧
      (Binary .i .w8 5#8 0#8 1#8 ∧ val .i 0#8 = 0 ∧ val .i 1#8 = 1) ∧
      (Binary .i .w8 5#8 0xF0#8 1#8 ∧ val .i 0xF0#8 = minInt .i 5 ∧ val .i 1#8 = 1) ∧
      (Binary .i .w128 128#8 0#128 (BitVec.intMin 128) ∧ val .i 0#128 = 0 ∧ val .i (BitVec.intMin 128) = minInt .i 128) ∧
      Binary .i .w8 1#8 0xFF#8 0xFF#8 := by decide

theorem witness_MulwWrapsTheProduct :
    BinaryFaults ∧ (Binary .u .w8 5#8 31#8 0#8 ∧ val .u 0#8 = 0) ∧ (Binary .u .w8 1#8 1#8 1#8 ∧ val .u 1#8 = 1) ∧
      (Binary .i .w8 5#8 0xF0#8 0xFF#8 ∧ val .i 0xF0#8 = minInt .i 5 ∧ val .i 0xFF#8 = -1) ∧
      Binary .u .w128 128#8 (-1#128) (-1#128) := by decide

theorem witness_AddoFlagsTheSum :
    BinaryFaults ∧ (Binary .u .w8 5#8 30#8 1#8 ∧ val .u 30#8 = maxInt .u 5 - 1 ∧ val .u 1#8 = 1) ∧
      (Binary .i .w128 128#8 (BitVec.intMax 128) 1#128 ∧ val .i (BitVec.intMax 128) = maxInt .i 128 ∧ val .i 1#128 = 1) ∧
      (Binary .u .w8 1#8 1#8 1#8 ∧ val .u 1#8 = maxInt .u 1 ∧ val .u 1#8 = 1) ∧
      (Binary .i .w8 5#8 0xF0#8 0xFF#8 ∧ val .i 0xF0#8 + val .i 0xFF#8 < minInt .i 5) := by decide

theorem witness_SuboFlagsTheDifference :
    BinaryFaults ∧ (Binary .u .w8 8#8 5#8 6#8 ∧ (5#8).toNat < (6#8).toNat) ∧
      (Binary .i .w8 5#8 0#8 0xF0#8 ∧ (0#8).toInt = 0 ∧ (0xF0#8).toInt = minInt .i 5) ∧
      (Binary .i .w8 1#8 0#8 0xFF#8 ∧ maxInt .i 1 < val .i 0#8 - val .i 0xFF#8) ∧
      Binary .u .w128 128#8 (-1#128) (-1#128) := by decide

theorem witness_MuloFlagsTheProduct :
    BinaryFaults ∧ (Binary .u .w8 5#8 31#8 0#8 ∧ val .u 0#8 = 0) ∧
      (Binary .i .w8 1#8 0xFF#8 0xFF#8 ∧ (0xFF#8).toInt = minInt .i 1 ∧ (0xFF#8).toInt = -1) ∧
      (Binary .i .w128 128#8 (BitVec.intMin 128) 1#128 ∧ (BitVec.intMin 128).toInt = minInt .i 128 ∧ (1#128).toInt = 1) := by
  decide

theorem witness_AddsClampsTheSum :
    BinaryFaults ∧
      (Binary .u .w8 5#8 30#8 1#8 ∧ minInt .u 5 ≤ val .u 30#8 + val .u 1#8 ∧ val .u 30#8 + val .u 1#8 ≤ maxInt .u 5) ∧
      (Binary .u .w8 5#8 31#8 1#8 ∧ val .u 31#8 = maxInt .u 5 ∧ val .u 1#8 = 1) ∧
      (Binary .i .w8 1#8 0xFF#8 0xFF#8 ∧ val .i 0xFF#8 = minInt .i 1 ∧ val .i 0xFF#8 = -1) ∧
      (Binary .i .w128 128#8 (BitVec.intMax 128) (BitVec.intMin 128) ∧ val .i (BitVec.intMax 128) = maxInt .i 128 ∧
        val .i (BitVec.intMin 128) = minInt .i 128) := by decide

theorem witness_SubsClampsTheDifference :
    BinaryFaults ∧
      (Binary .u .w8 5#8 31#8 31#8 ∧ minInt .u 5 ≤ val .u 31#8 - val .u 31#8 ∧ val .u 31#8 - val .u 31#8 ≤ maxInt .u 5) ∧
      (Binary .u .w128 128#8 0#128 1#128 ∧ (0#128).toNat < (1#128).toNat) ∧
      (Binary .i .w8 1#8 0#8 0xFF#8 ∧ val .i 0#8 = 0 ∧ val .i 0xFF#8 = minInt .i 1) := by decide

theorem witness_MulsClampsTheProduct :
    BinaryFaults ∧
      (Binary .i .w8 8#8 0xF0#8 8#8 ∧ minInt .i 8 ≤ val .i 0xF0#8 * val .i 8#8 ∧ val .i 0xF0#8 * val .i 8#8 ≤ maxInt .i 8) ∧
      (Binary .i .w128 128#8 (BitVec.intMin 128) (-1#128) ∧ val .i (BitVec.intMin 128) = minInt .i 128 ∧
        val .i (-1#128) = -1) ∧
      (Binary .u .w8 1#8 1#8 0#8 ∧ val .u 0#8 = 0) := by decide

theorem witness_DivTruncRoundsTowardZero :
    BinaryFaults ∧ DivisionCases ∧ (Binary .i .w8 8#8 0#8 0xFF#8 ∧ val .i 0#8 = 0) ∧
      (Binary .i .w8 8#8 0x80#8 1#8 ∧ val .i 1#8 = 1) ∧
      (Binary .u .w8 8#8 1#8 2#8 ∧ (val .u 1#8).natAbs < (val .u 2#8).natAbs) :=
  ⟨by decide, by decide, by decide, by decide, by decide⟩

theorem witness_RemHasTheSignOfTheDividend : BinaryFaults ∧ DivisionCases := by decide

theorem witness_DivFloorRoundsDown : BinaryFaults ∧ DivisionCases := by decide

theorem witness_ModHasTheSignOfTheDivisor : BinaryFaults ∧ DivisionCases := by decide

theorem witness_QuotientAndRemainderRecompose : State.reset.fault = 0x00#8 ∧ DivisionCases := by decide

theorem witness_FloorIsCorrectedTruncation : (2 : Int) ≠ 0 ∧ (-1 : Int) ≠ 0 := by decide

theorem witness_ClzCountsWithinWidth :
    UnaryFaults ∧ Unary .u .w8 5#8 0#8 ∧ (Unary .i .w8 5#8 0xF0#8 ∧ (0xF0#8).toInt < 0) ∧
      (Unary .u .w8 5#8 1#8 ∧ 0 < (5#8).toNat ∧ (1#8).getLsbD 0 = true ∧
        ∀ j, j < (5#8).toNat → 0 < j → (1#8).getLsbD j = false) ∧
      (Unary .u .w128 128#8 (-1#128) ∧ (-1#128) ≠ 0#128 ∧ (-1#128).getLsbD 127 = true) :=
  ⟨by decide, by decide, by decide, by decide, by decide⟩

theorem witness_CtzCountsWithinWidth :
    UnaryFaults ∧ Unary .u .w8 5#8 0#8 ∧ (Unary .i .w8 5#8 0xF0#8 ∧ (0xF0#8).toInt = minInt .i 5) ∧
      (Unary .u .w8 5#8 0x10#8 ∧ 4 < (5#8).toNat ∧ (0x10#8).getLsbD 4 = true ∧ ∀ j, j < 4 → (0x10#8).getLsbD j = false) ∧
      Unary .u .w128 128#8 (-1#128) := by decide

theorem witness_PopcountCountsWithinWidth :
    UnaryFaults ∧ Unary .u .w8 1#8 0#8 ∧ (Unary .i .w8 5#8 0xFF#8 ∧ (0xFF#8).toInt = -1) ∧
      Unary .u .w128 128#8 (-1#128) := by decide

theorem witness_ByteswapReversesBytes :
    State.reset.fault = 0x00#8 ∧ ¬LegalWidth .w8 0#8 ∧ ¬LegalWidth .w16 17#8 ∧
      (LegalWidth .w16 9#8 ∧ (9#8).toNat % 8 ≠ 0) ∧
      (LegalWidth .w32 24#8 ∧ (24#8).toNat % 8 = 0 ∧ canonical .u 24 0x01000000#32 = false) ∧
      (Unary .i .w16 8#8 0xFF80#16 ∧ (8#8).toNat % 8 = 0 ∧ (8#8).toNat = 8) ∧
      (Unary .u .w128 128#8 (-1#128) ∧ (128#8).toNat % 8 = 0) := by decide

theorem witness_BitreverseReversesBits :
    UnaryFaults ∧ (Unary .i .w8 1#8 0xFF#8 ∧ (1#8).toNat = 1) ∧ Unary .u .w8 5#8 0#8 ∧
      (Unary .u .w8 5#8 0x1F#8 ∧ ∀ j, j < (5#8).toNat → (0x1F#8).getLsbD j = true) ∧ Unary .u .w128 128#8 1#128 := by decide

theorem witness_SwapAndReverseAreInvolutions :
    State.reset.fault = 0x00#8 ∧ Unary .i .w8 1#8 0xFF#8 ∧ (Unary .u .w32 24#8 0x123456#32 ∧ (24#8).toNat % 8 = 0) := by
  decide

theorem witness_RecursiveUnitsGiveTheResults :
    State.reset.fault = 0x00#8 ∧ Unary .i .w8 1#8 0xFF#8 ∧ (Unary .u .w128 128#8 5#128 ∧ (128#8).toNat % 8 = 0) := by decide

theorem witness_MakeJoinsTheHalves :
    State.reset.fault = 0x00#8 ∧ (LegalWidth .w128 127#8 ∧ canonical .u 127 ((1#1 ++ 0#127) : BitVec 128) = false) ∧
      (LegalWidth .w128 1#8 ∧ canonical .i 1 1#128 = false) ∧
      (opNumber 0x000001A0#32 = 0x20 ∧ widthNumber 0x000001A0#32 ≠ 4) ∧
      (opNumber 0x00000620#32 = 0x20 ∧ bitsNumber 0x00000620#32 ≠ 0) := by decide

theorem witness_HiAndLoGiveTheHalves :
    State.reset.fault = 0x00#8 ∧ 63 < 64 ∧ (opNumber 0x000001A1#32 = 0x21 ∧ widthNumber 0x000001A1#32 ≠ 4) ∧
      (opNumber 0x00010222#32 = 0x22 ∧ bitsNumber 0x00010222#32 ≠ 0) := by decide

theorem witness_CmpComparesThreeWay :
    State.reset.fault = 0x00#8 ∧ val .i (BitVec.intMin 128) < val .i 0#128 ∧ val .u 0#128 < val .u (BitVec.intMin 128) ∧
      val .i 5#128 = val .i 5#128 ∧ (opNumber 0x00000023#32 = 0x23 ∧ widthNumber 0x00000023#32 ≠ 4) ∧
      (opNumber 0x00020263#32 = 0x23 ∧ bitsNumber 0x00020263#32 ≠ 0) := by decide

theorem witness_ComposedAddAndSubAgree :
    State.reset.fault = 0x00#8 ∧ Binary .u .w128 1#8 1#128 1#128 ∧ Binary .i .w128 128#8 (-1#128) 1#128 := by decide

theorem witness_ComposedShiftsAgree :
    State.reset.fault = 0x00#8 ∧ (Unary .u .w128 100#8 5#128 ∧ (0#8).toNat ≤ 127) ∧
      (Unary .i .w128 128#8 (-1#128) ∧ (127#8).toNat ≤ 127) := by decide

theorem witness_ComposedBitwiseAndProductAgree :
    State.reset.fault = 0x00#8 ∧ Binary .u .w128 1#8 1#128 1#128 ∧ Binary .i .w128 128#8 (-1#128) 1#128 := by decide

theorem witness_WrapvIsTheUniqueReduction :
    (1 ≤ 1 ∧ minInt .i 1 ≤ -1 ∧ -1 ≤ maxInt .i 1 ∧ (2 ^ 1 : Int) ∣ -1 - 1) ∧ (2 : Int) = wrapv .u 5 (-30) := by decide

theorem witness_CanonicalMeansExtended :
    (1 ≤ 1 ∧ 1 ≤ Width.w8.bits) ∧ (1 ≤ 128 ∧ 128 ≤ Width.w128.bits) ∧ canonical .u 1 (1#8) = true ∧
      canonical .i 5 0x10#8 = false := by decide

theorem witness_ComposedFlagIsTheExactFlag :
    LegalWidth .w8 1#8 ∧ LegalWidth .w128 128#8 ∧ composedFlag .u 8 5 256 = true ∧ maxInt .u 5 < 256 := by decide

theorem witness_SignBoundsAreTheClamp :
    (1 ≤ 1 ∧ minInt .i 1 ≤ -1 ∧ (-1 : Int) ≤ maxInt .i 1) ∧ (minInt .u 5 ≤ 31 ∧ (31 : Int) ≤ maxInt .u 5) := by decide

theorem witness_EncodeInvertsDecode :
    decode ⟨0x0000140C#32, 30#128, 1#128⟩ = .ok (.addoU8 5#8 30#8 1#8) ∧
      (⟨0x0000140C#32, 30#128, 1#128⟩ : Request).lanesOk .addo .w8 = true := by decide

theorem witness_EveryControlWordIsOneKind :
    ({ State.reset with host := [.request ⟨0x0000140C#32, 30#128, 1#128⟩] } : State).fault = 0x00#8 ∧
      LegalWord 0x0000140C#32 ∧ LegalWord 0x00000260#32 ∧ ReservedWord 0x0000200F#32 ∧ IllegalWord 0x0004140C#32 ∧
      IllegalWord 0x00002007#32 ∧ IllegalWord 0x000001A0#32 ∧ IllegalWord 0x00000620#32 ∧ IllegalWord 0x00002280#32 := by
  refine ⟨by decide, .inl ⟨0x0C, by decide, by decide, .u, .w8, by decide⟩, .inr ⟨0x20, by decide, .i, by decide⟩, ?_⟩
  unfold ReservedWord IllegalWord
  exact ⟨by decide, by decide, by decide, by decide, by decide, by decide⟩

theorem witness_AssembledLineIsItsRow :
    assemble ⟨.addo, .u, .w8, some 5, [.dec 30, .dec 1]⟩ = some ⟨0x0000140C#32, 30#128, 1#128⟩ ∧
      assemble ⟨.make, .i, .w128, none, [.dec (-1), .hex 0xF]⟩ =
        some ⟨0x00000260#32, 0xFFFFFFFFFFFFFFFF#128, 0xF#128⟩ ∧
      mnemonic .divTrunc .i .w128 = mnemonic .divTrunc .i .w128 := by decide

/-- A state at which the host offers one request. -/
def offering (cw : ControlWord) (a b : BitVec 128) : State := { State.reset with host := [.request ⟨cw, a, b⟩] }

theorem witness_StepRunsDecodedRequest :
    (offering 0x0000140C#32 30#128 1#128).host = [.request ⟨0x0000140C#32, 30#128, 1#128⟩] ∧
      decode ⟨0x0000140C#32, 30#128, 1#128⟩ = .ok (.addoU8 5#8 30#8 1#8) := by decide

theorem witness_RequestsFollowTheCheckOrder :
    (offering 0x0000140C#32 30#128 1#128).fault = 0x00#8 ∧
      (offering 0x0000140C#32 30#128 1#128).host = [.request ⟨0x0000140C#32, 30#128, 1#128⟩] ∧
      firstCheck ⟨0x0000140C#32, 30#128, 1#128⟩ = none ∧
      firstCheck ⟨0x0004140C#32, 30#128, 1#128⟩ = some .illegalEncoding ∧
      firstCheck ⟨0x0000200F#32, 1#128, 1#128⟩ = some .reservedOp ∧
      firstCheck ⟨0x0000000C#32, 0x20#128, 1#128⟩ = some .badLogicalWidth ∧
      firstCheck ⟨0x0000149B#32, 0x20#128, 1#128⟩ = some .byteSwapWidth ∧
      firstCheck ⟨0x0000140C#32, 1#128, 0x20#128⟩ = some .nonCanonicalOperand ∧
      firstCheck ⟨0x00001405#32, 1#128, 8#128⟩ = some .shiftAmountOutOfRange ∧
      firstCheck ⟨0x00001454#32, 0xF0#128, 0#128⟩ = some .divideByZero ∧
      firstCheck ⟨0x00001454#32, 0xF0#128, 0xFF#128⟩ = some .divideOverflow := by decide

theorem witness_FaultEntryEmptiesTheLatches :
    ((offering 0x00001454#32 0xF0#128 0#128).fault = 0x00#8 ∧
      firstCheck ⟨0x00001454#32, 0xF0#128, 0#128⟩ = some .divideByZero) ∧
      readRegister 0#8 { State.reset with host := [.read 0#8] } = none ∧
      readRegister 4#8 { fullState with host := [.read 4#8] } = none ∧
      readRegister 255#8 { fullState with fault := 0x05#8, host := [.read 255#8] } = none := by decide

theorem witness_FaultedBlockIsQuiescent :
    ({ State.reset with fault := 0x01#8 } : State).fault ≠ 0x00#8 ∧ ({ State.reset with fault := 0x01#8 } : State).host = [] ∧
      ({ State.reset with fault := 0x09#8, host := [.read 2#8] } : State).host = [.read 2#8] ∧
      seen { State.reset with fault := 0xFF#8, host := [.read 3#8] } ≠ none := by decide

theorem witness_OneRequestIsOneStep :
    (offering 0x0000140C#32 30#128 1#128).fault = 0x00#8 ∧
      ({ offering 0x0000140C#32 30#128 1#128 with fault := 0x01#8 } : State).fault ≠ 0x00#8 := by decide

theorem witness_StepKeepsInvariant :
    Inv { fullState with host := [.request ⟨0x0000140C#32, 30#128, 1#128⟩] } ∧
      seen { fullState with host := [.request ⟨0x0000140C#32, 30#128, 1#128⟩] } ≠ none :=
  ⟨⟨by decide, by decide, by rintro l h; cases h; decide, by decide, rfl⟩, by decide⟩

theorem witness_ResetRestoresTheBlock :
    ({ State.reset with fault := 0x05#8, host := [.reset] } : State).host = [.reset] ∧
      ({ State.reset with fault := 0x05#8, host := [.reset] } : State).fault ≠ 0x00#8 ∧
      seen { State.reset with fault := 0x05#8, host := [.reset] } = some (none, none, 0x00#8, none, 0) := by decide

theorem witness_ModelFieldsAroundAStep :
    (State.reset.host = [] ∧ State.reset.fault = 0x00#8) ∧ ({ State.reset with fault := 0x01#8 } : State).fault ≠ 0x00#8 ∧
      seen (offering 0x0000140C#32 30#128 1#128) ≠ none ∧ seen { fullState with host := [.read 4#8, .reset] } ≠ none ∧
      ({ fullState with host := [.reset] } : State).host = [.reset] := by decide

theorem witness_HostReadsOfLatches :
    fullState.res = some ⟨16, 3#16⟩ ∧ fullState.ovf = some true ∧ State.reset.res = none ∧ State.reset.ovf = none ∧
      4 ≤ (4#8).toNat ∧ 4 ≤ (255#8).toNat ∧ fullState.fault = 0x00#8 ∧
      ({ State.reset with fault := 0x05#8 } : State).fault ≠ 0x00#8 := by decide

theorem witness_HostReadsOfFaultAndCfg :
    ({ fullState with host := [.read 2#8] } : State).host = [.read 2#8] ∧
      ({ fullState with host := [.read 3#8] } : State).host = [.read 3#8] := by decide

theorem witness_CfgFieldsAndFixedness :
    seen { fullState with host := [.read 2#8] } ≠ none ∧ seen { fullState with host := [.reset] } ≠ none := by decide

theorem witness_ResultsIgnoreConfiguration :
    seen (offering 0x0000140C#32 30#128 1#128) ≠ none ∧
      stopped { offering 0x0000140C#32 30#128 1#128 with fault := 0x01#8 } ≠ none := by decide

theorem witness_ResponseIsAFunctionOfTheRequest : State.reset.fault = 0x00#8 ∧ fullState.fault = 0x00#8 := by decide

theorem witness_ResultWidthsAndFlags :
    fullState.fault = 0x00#8 ∧ answer (.addoU8 5#8 30#8 1#8) = some (some ⟨8, 31#8⟩, some false, 0x00#8) ∧
      answer (.clzI128 128#8 1#128) = some (some ⟨8, 127#8⟩, none, 0x00#8) := by decide

end Sys2Proof.Tests
end

section
/-!
PROOFS. The range of (s, bits) and reduction into it (00_scope.md R17, R18), canonical containers (R20), and the response of a
request (R23).
-/

namespace Sys2Proof.Machine

/-! ## The range of (s, bits) and reduction into it -/

/-- The range of (s, bits) holds 2^bits integers. -/
theorem maxInt_eq (sg : Sign) {bits : Nat} (hb : 1 ≤ bits) : maxInt sg bits = minInt sg bits + 2 ^ bits - 1 := by
  obtain ⟨m, rfl⟩ : ∃ m, bits = m + 1 := ⟨bits - 1, by omega⟩
  cases sg <;> simp only [minInt, maxInt, Nat.add_sub_cancel] <;> push_cast [pow_succ] <;> ring

/-- A reduced value lies in the range it is reduced into. -/
theorem wrapv_mem_range (sg : Sign) {bits : Nat} (v : Int) (hb : 1 ≤ bits) :
    minInt sg bits ≤ wrapv sg bits v ∧ wrapv sg bits v ≤ maxInt sg bits := by
  have hpos : (0 : Int) < (2 ^ bits : Nat) := by positivity
  cases sg
  case u =>
    have hlt := Int.emod_lt_of_pos v hpos
    exact ⟨Int.emod_nonneg v hpos.ne', by simp only [maxInt, wrapv]; omega⟩
  case i =>
    obtain ⟨m, rfl⟩ : ∃ m, bits = m + 1 := ⟨bits - 1, by omega⟩
    have hle := Int.le_bmod (x := v) (Nat.two_pow_pos (m + 1))
    have hlt := Int.bmod_lt (x := v) (Nat.two_pow_pos (m + 1))
    simp only [minInt, maxInt, wrapv, Nat.add_sub_cancel, pow_succ] at hle hlt ⊢
    omega

/-- A reduced value is congruent to the value it was reduced from. -/
theorem two_pow_dvd_wrapv_sub (sg : Sign) (bits : Nat) (v : Int) : (2 ^ bits : Int) ∣ wrapv sg bits v - v := by
  have hcast : ((2 ^ bits : Nat) : Int) = 2 ^ bits := Nat.cast_pow 2 bits
  rw [← hcast]
  cases sg
  case u => exact Int.dvd_emod_sub_self
  case i => exact Int.dvd_bmod_sub_self

/-- Two integers in the range of (s, bits) that are congruent modulo 2^bits are equal. -/
theorem eq_of_mem_range_of_dvd {sg : Sign} {bits : Nat} {x y : Int} (hb : 1 ≤ bits)
    (hx : minInt sg bits ≤ x ∧ x ≤ maxInt sg bits) (hy : minInt sg bits ≤ y ∧ y ≤ maxInt sg bits)
    (hd : (2 ^ bits : Int) ∣ x - y) : x = y := by
  have hspan := maxInt_eq sg hb
  have hlt : |x - y| < 2 ^ bits := by rw [abs_lt]; constructor <;> linarith
  exact sub_eq_zero.mp (Int.eq_zero_of_abs_lt_dvd hd hlt)

/-- Settles O37: `wrapv` is in range and congruent, and congruent integers in range are equal. -/
theorem wrapvIsTheUniqueReduction : Obligations.WrapvIsTheUniqueReduction := by
  intro sg bits v x hb
  have hw := wrapv_mem_range sg v hb
  have hdvd := two_pow_dvd_wrapv_sub sg bits v
  constructor
  · rintro rfl
    exact ⟨hw.1, hw.2, hdvd⟩
  · rintro ⟨hmin, hmax, hx⟩
    have hxw : (2 ^ bits : Int) ∣ x - wrapv sg bits v := by
      have := dvd_sub hx hdvd
      rwa [sub_sub_sub_cancel_right] at this
    exact eq_of_mem_range_of_dvd hb ⟨hmin, hmax⟩ hw hxw

/-! ## Canonical containers -/

/-- Extending a vector keeps its value. -/
@[simp] theorem val_extend (sg : Sign) {bits n : Nat} (y : BitVec bits) (hb : bits ≤ n) :
    val sg (extend sg n y) = val sg y := by
  cases sg
  case u => simp [extend, BitVec.toNat_setWidth_of_le hb]
  case i => exact BitVec.toInt_signExtend_of_le hb

/-- The low bits of a container encode its value. -/
theorem lowBits_eq_enc (sg : Sign) {bits n : Nat} (x : BitVec n) (hb : bits ≤ n) :
    lowBits bits x = enc bits (val sg x) := by
  have hlow : lowBits bits x = x.setWidth bits := (BitVec.setWidth_eq_extractLsb' hb).symm
  rw [hlow]
  cases sg
  case u => simp [enc]
  case i => exact (BitVec.signExtend_eq_setWidth_of_le x hb).symm

/-- A container is canonical exactly when it is the extension of its own low bits. -/
theorem canonical_iff_extend_lowBits (sg : Sign) {bits n : Nat} (x : BitVec n) (h1 : 1 ≤ bits) (hb : bits ≤ n) :
    canonical sg bits x = true ↔ x = extend sg n (lowBits bits x) := by
  constructor
  · intro hc
    obtain ⟨hmin, hmax⟩ := canonical_iff.mp hc
    apply val_injective sg
    rw [val_extend sg _ hb, lowBits_eq_enc sg x hb, val_enc sg h1 hmin hmax]
  · intro hx
    rw [hx, canonical_iff, val_extend sg _ hb]
    exact val_mem_range sg _ h1

/-- A container is canonical exactly when each bit from `bits` up is 0 for s = u, and a copy of bit `bits-1` for s = i. -/
theorem canonical_iff_getLsbD (sg : Sign) {bits n : Nat} (x : BitVec n) (h1 : 1 ≤ bits) (hb : bits ≤ n) :
    canonical sg bits x = true ↔
      ∀ k, bits ≤ k → k < n → x.getLsbD k = (decide (sg = .i) && x.getLsbD (bits - 1)) := by
  have hmsb : (lowBits bits x).msb = x.getLsbD (bits - 1) := by
    rw [BitVec.msb_eq_getLsbD_last, getLsbD_lowBits]; simp [show bits - 1 < bits by omega]
  rw [canonical_iff_extend_lowBits sg x h1 hb]
  constructor
  · intro hx k hk hkn
    have hbit := congrArg (·.getLsbD k) hx
    simpa [getLsbD_extend sg n _ k hkn, hmsb, Nat.not_lt.mpr hk] using hbit
  · intro hbits
    apply BitVec.eq_of_getLsbD_eq
    intro k hkn
    rw [getLsbD_extend sg n _ k hkn, hmsb]
    split
    case isTrue hk => simp only [getLsbD_lowBits, hk, decide_true, Bool.true_and]
    case isFalse hk => exact hbits k (Nat.le_of_not_lt hk) hkn

/-- Settles O38: the bits above the low `bits` bits are those of the zero extension or the sign extension. -/
theorem canonicalMeansExtended : Obligations.CanonicalMeansExtended := by
  intro w bits x h1 hb
  constructor
  · simpa using canonical_iff_getLsbD .u x h1 hb
  · rw [canonical_iff_getLsbD .i x h1 hb]
    simp only [decide_true, Bool.true_and]
    constructor
    · intro h k hk hkn
      rcases hk.eq_or_lt with rfl | hlt
      · rfl
      · exact h k (by omega) hkn
    · intro h k hk hkn
      exact h k (by omega) hkn

/-! ## The response of a request -/

/-- Settles O59: an instruction serves one request with the same checks, result and flag in every state, so two unfaulted
states take the same fault or complete alike. -/
theorem responseIsAFunctionOfTheRequest : Obligations.ResponseIsAFunctionOfTheRequest := by
  intro i s t hs ht
  obtain ⟨checks, l, o, hserve⟩ := exec_serves_alike i
  rw [hserve s, hserve t]
  cases hc : firstFault checks with
  | some c => exact ⟨none, none, c.code, serve_faults hs hc l o, serve_faults ht hc l o, by simp⟩
  | none =>
    refine ⟨some l, o, 0x00#8, ?_, ?_, fun _ => rfl⟩
    · rw [serve_completes hs hc, complete, hs]
    · rw [serve_completes ht hc, complete, ht]

end Sys2Proof.Machine
end

section
/-!
PROOFS. Host reads (10_state.md R36 to R38) and reset (10_state.md R43, 70_reset_and_hazards.md R340).
-/

namespace Sys2Proof.Machine

/-! ## Host reads -/

section
variable {s : State} {rest : List HostAction} {n : BitVec 8}

/-- What a register holds does not depend on what the host has still to do. -/
@[simp] theorem readRegister_withHost (n : BitVec 8) (s : State) (rest : List HostAction) :
    readRegister n { s with host := rest } = readRegister n s := rfl

/-- The step of a read that has a value. -/
theorem step_read_some {v : ReadValue} (h : s.host = .read n :: rest) (hv : readRegister n s = some v) :
    step s = .next { s with host := rest, readValue := some v } := by
  rw [step_read h, hostRead_some (s := { s with host := rest }) hv]

/-- The step of a read that has no value. -/
theorem step_read_none (h : s.host = .read n :: rest) (hv : readRegister n s = none) :
    step s = .next (raiseFault .badRead { s with host := rest, readValue := none }) := by
  rw [step_read h, hostRead_none (s := { s with host := rest }) hv]

/-- Taking a fault stores its code in a block that has none (R312). -/
theorem raiseFault_fault_of_unfaulted (c : FaultCode) (hf : s.fault = 0x00#8) : (raiseFault c s).fault = c.code := by
  rw [raiseFault_fault, if_pos hf]

/-- Taking a fault keeps the code an earlier fault left (R312). -/
theorem raiseFault_fault_of_faulted (c : FaultCode) (hf : s.fault ≠ 0x00#8) : (raiseFault c s).fault = s.fault := by
  rw [raiseFault_fault, if_neg hf]

/-- A read keeps the code an earlier fault left. -/
theorem hostRead_fault_of_faulted (n : BitVec 8) (hf : s.fault ≠ 0x00#8) : (hostRead n s).fault = s.fault := by
  rcases hostRead_cases n s with ⟨v, -, hread⟩ | ⟨-, hread⟩
  · rw [hread]
  · rw [hread]
    exact raiseFault_fault_of_faulted .badRead hf
end

/-- Settles O55: `readRegister` has the latch's value where there is one, and none in the three cases of BadRead. -/
theorem hostReadsOfLatches : Obligations.HostReadsOfLatches := by
  intro s n rest hhost
  refine ⟨?res, ?ovf, ?badRead⟩
  case res =>
    rintro l rfl hres
    exact step_read_some hhost (by simp [hres])
  case ovf =>
    rintro f rfl hovf
    exact step_read_some hhost (by simp [hovf])
  case badRead =>
    intro hcase
    have hnone : readRegister n s = none := by
      rcases hcase with ⟨rfl, hres⟩ | ⟨rfl, hovf⟩ | hn
      · simp [hres]
      · simp [hovf]
      · exact readRegister_none hn s
    refine ⟨_, step_read_none hhost hnone, rfl, rfl, rfl, rfl, rfl, ?first, ?later⟩
    case first => exact raiseFault_fault_of_unfaulted .badRead
    case later => exact raiseFault_fault_of_faulted .badRead

/-- Settles O56: FAULT and CFG have a value in every state. -/
theorem hostReadsOfFaultAndCfg : Obligations.HostReadsOfFaultAndCfg := by
  intro s rest
  exact ⟨fun h => step_read_some h (readRegister_fault s), fun h => step_read_some h (readRegister_cfg s)⟩

/-! ## Reset -/

/-- A faulted block keeps its code at every step but reset. -/
theorem step_fault_of_faulted {s t : State} (hf : s.fault ≠ 0x00#8) (h : step s = .next t) :
    t.fault = s.fault ∨ ∃ rest, s.host = .reset :: rest := by
  rcases step_cases h with ⟨-, hidle, -⟩ | ⟨n, rest, -, rfl⟩ | ⟨rest, hreset, -⟩ | ⟨r, rest, -, haccepted, -⟩
  · exact absurd hidle hf
  · exact .inl (hostRead_fault_of_faulted (s := { s with host := rest }) n hf)
  · exact .inr ⟨rest, hreset⟩
  · exact absurd haccepted hf

/-- Settles O53: the step of a reset is `resetBlock`, and any other step of a faulted block keeps its code. -/
theorem resetRestoresTheBlock : Obligations.ResetRestoresTheBlock := by
  refine ⟨?step, reset_res, reset_ovf, reset_fault, reset_cfg, ?onlyReset⟩
  case step =>
    intro s rest hhost
    exact ⟨_, step_reset hhost, resetBlock_res _, resetBlock_ovf _, resetBlock_fault _, resetBlock_cfg _⟩
  case onlyReset =>
    intro s t hf hstep hcleared
    rcases step_fault_of_faulted hf hstep with hkept | hreset
    · exact absurd (hkept.symm.trans hcleared) hf
    · exact hreset

end Sys2Proof.Machine
end

section
/-!
PROOFS. The control word (30_encoding.md): its fields as numbers (R81), the three kinds a word can be of (R89 to R91), the worked
encodings (R98), and the width and the flag of every operation's result (R85).
-/

namespace Sys2Proof.Machine

/-! ## The numbers of a control word are its fields -/

section
variable (cw : ControlWord)

@[simp] theorem toNat_opField : (opField cw).toNat = opNumber cw := by
  simp [opField, opNumber]

@[simp] theorem toNat_widthField : (widthField cw).toNat = widthNumber cw := by
  simp [widthField, widthNumber, Nat.shiftRight_eq_div_pow]

@[simp] theorem toNat_bitsField : (bitsField cw).toNat = bitsNumber cw := by
  simp [bitsField, bitsNumber, Nat.shiftRight_eq_div_pow]

@[simp] theorem toNat_reservedField : (reservedField cw).toNat = reservedNumber cw := by
  have := cw.isLt
  simp only [reservedField, reservedNumber, BitVec.extractLsb'_toNat, Nat.shiftRight_eq_div_pow]
  omega

theorem reservedField_eq_zero_iff : reservedField cw = 0#14 ↔ reservedNumber cw = 0 := by
  simp [← BitVec.toNat_inj]

theorem bitsField_eq_zero_iff : bitsField cw = 0#8 ↔ bitsNumber cw = 0 := by
  simp [← BitVec.toNat_inj]
end

/-! ## Which codes name an operation or a width -/

/-- An OP value names an operation exactly when the opcode map lists it (R87). -/
theorem opOfCode_eq_none_iff {c : BitVec 6} : opOfCode c = none ↔ c.toNat ∉ listedOps := by
  revert c; decide

theorem lt_of_mem_listedOps : ∀ {n : Nat}, n ∈ listedOps → n < 2 ^ 6 := by
  unfold listedOps; decide

theorem exists_opCode_of_mem_listedOps {n : Nat} (h : n ∈ listedOps) : ∃ op, (opCode op).toNat = n := by
  have hn : (BitVec.ofNat 6 n).toNat = n := Nat.mod_eq_of_lt (lt_of_mem_listedOps h)
  cases ho : opOfCode (BitVec.ofNat 6 n) with
  | none => exact absurd h (hn ▸ opOfCode_eq_none_iff.mp ho)
  | some op => exact ⟨op, by rw [opCode_opOfCode ho, hn]⟩

theorem opCode_mem_listedOps (op : Op) : (opCode op).toNat ∈ listedOps := by
  cases op <;> decide

theorem opCode_mem_only128Ops_iff (op : Op) : (opCode op).toNat ∈ only128Ops ↔ op.only128 = true := by
  cases op <;> decide

theorem mem_listedOps_of_mem_only128Ops : ∀ {n : Nat}, n ∈ only128Ops → n ∈ listedOps := by
  unfold only128Ops; decide

/-- The two OP values of R90 are not in the opcode map. -/
theorem not_mem_listedOps_of_reserved {n : Nat} (h : n = 0x0F ∨ n = 0x13) : n ∉ listedOps := by
  rcases h with rfl | rfl <;> decide

theorem reservedOp_iff {c : BitVec 6} : reservedOp c = true ↔ c.toNat = 0x0F ∨ c.toNat = 0x13 := by
  revert c; decide

theorem widthOfCode_eq_none_iff {c : BitVec 3} : widthOfCode c = none ↔ 5 ≤ c.toNat := by
  revert c; decide

theorem widthCode_le (w : Width) : (widthCode w).toNat ≤ 4 := by cases w <;> decide

theorem widthCode_eq_four_iff (w : Width) : (widthCode w).toNat = 4 ↔ w = .w128 := by cases w <;> decide

/-! ## Legal words -/

/-- Under the mask that leaves BITS out, a word is a row's word exactly when it is packed from the row and its own BITS (R88). -/
theorem masked_eq_packWord_iff {cw : ControlWord} {op : BitVec 6} {sg : BitVec 1} {w : BitVec 3} :
    cw &&& 0xFFFC03FF#32 = packWord op sg w 0#8 ↔ cw = packWord op sg w (bitsField cw) := by
  constructor
  · intro h
    apply BitVec.eq_of_getLsbD_eq
    intro k hk
    have hbit := congrArg (·.getLsbD k) h
    revert hbit
    simp only [packWord_eq_append, bitsField, BitVec.getLsbD_and, BitVec.getLsbD_append, BitVec.getLsbD_extractLsb']
    interval_cases k <;> simp
  · intro h
    rw [h]
    exact packWord_masked op sg w (bitsField _) _ rfl

/-- A row's word decodes to the row's instruction, whatever the operands (R88). -/
theorem decode_packWord {op : Op} {w : Width} {bits : BitVec 8} (h : op.only128 = true → w = .w128 ∧ bits = 0#8) (sg : Sign)
    (a b : BitVec 128) :
    decode ⟨packWord (opCode op) (signBit sg) (widthCode w) bits, a, b⟩ = .ok (rowOf ⟨op, sg, w, bits, a, b⟩) := by
  have hlegal : (op.only128 && (w != .w128 || bits != 0#8)) = false := by
    cases h128 : op.only128 with
    | false => rfl
    | true => simp [h h128]
  simp [decode, decodeFields_packWord, hlegal]

/-- A legal word is packed from an operation, a signedness, a width and BITS; the 128-only operations fix the last two. -/
theorem legalWord_iff_packWord {cw : ControlWord} :
    LegalWord cw ↔ ∃ op sg w bits, cw = packWord (opCode op) (signBit sg) (widthCode w) bits ∧
      (op.only128 = true → w = .w128 ∧ bits = 0#8) := by
  constructor
  · rintro (⟨n, hn, hnot, sg, w, hcw⟩ | ⟨n, hn, sg, hcw⟩)
    · obtain ⟨op, rfl⟩ := exists_opCode_of_mem_listedOps hn
      rw [tableWord_eq_packWord, masked_eq_packWord_iff] at hcw
      exact ⟨op, sg, w, bitsField cw, hcw, fun h => absurd ((opCode_mem_only128Ops_iff op).mpr h) hnot⟩
    · obtain ⟨op, rfl⟩ := exists_opCode_of_mem_listedOps (mem_listedOps_of_mem_only128Ops hn)
      rw [tableWord_eq_packWord] at hcw
      exact ⟨op, sg, .w128, 0#8, hcw, fun _ => ⟨rfl, rfl⟩⟩
  · rintro ⟨op, sg, w, bits, rfl, h⟩
    cases h128 : op.only128 with
    | false =>
      have hnot : (opCode op).toNat ∉ only128Ops := by simp [opCode_mem_only128Ops_iff, h128]
      refine .inl ⟨_, opCode_mem_listedOps op, hnot, sg, w, ?_⟩
      rw [tableWord_eq_packWord, masked_eq_packWord_iff, bitsField_packWord]
    | true =>
      obtain ⟨rfl, rfl⟩ := h h128
      exact .inr ⟨_, (opCode_mem_only128Ops_iff op).mpr h128, sg, (tableWord_eq_packWord op sg .w128 0#8).symm⟩

/-- A word is legal exactly when it decodes (R91). -/
theorem legalWord_iff_decode (cw : ControlWord) (a b : BitVec 128) : LegalWord cw ↔ ∃ i, decode ⟨cw, a, b⟩ = .ok i := by
  rw [legalWord_iff_packWord]
  constructor
  · rintro ⟨op, sg, w, bits, rfl, h⟩
    exact ⟨_, decode_packWord h sg a b⟩
  · rintro ⟨i, hi⟩
    cases hf : decodeFields ⟨cw, a, b⟩ with
    | error c => simp [decode, hf] at hi
    | ok f =>
      obtain ⟨hcw, -, -, h128⟩ := decodeFields_ok hf
      exact ⟨f.op, f.sg, f.w, f.bits, hcw, h128⟩

/-! ## The three kinds of control word -/

/-- Rows 4 to 6 of R310 reject illegal words only. -/
theorem decodeOp_error {cw : ControlWord} {w : Width} {c : FaultCode} (hw : widthOfCode (widthField cw) = some w)
    (hres : ¬(opNumber cw = 0x0F ∨ opNumber cw = 0x13)) (h : decodeOp cw w = .error c) :
    c = .illegalEncoding ∧ IllegalWord cw := by
  unfold decodeOp at h
  split at h
  case h_1 hop =>
    cases h
    rw [opOfCode_eq_none_iff, toNat_opField] at hop
    exact ⟨rfl, .inr (.inr (.inl ⟨hop, not_or.mp hres⟩))⟩
  case h_2 op hop =>
    split at h
    case isFalse => cases h
    case isTrue hbad =>
      cases h
      have hnumber : (opCode op).toNat = opNumber cw := by rw [opCode_opOfCode hop, toNat_opField]
      have hwidth : widthNumber cw = 4 ↔ w = .w128 := by
        rw [← toNat_widthField, ← widthCode_widthOfCode hw, widthCode_eq_four_iff]
      simp only [Bool.and_eq_true, Bool.or_eq_true, bne_iff_ne, ne_eq, bitsField_eq_zero_iff, ← hwidth,
        ← opCode_mem_only128Ops_iff, hnumber] at hbad
      obtain ⟨honly, hne | hne⟩ := hbad
      · exact ⟨rfl, .inr (.inr (.inr (.inl ⟨honly, hne⟩)))⟩
      · exact ⟨rfl, .inr (.inr (.inr (.inr ⟨honly, hne⟩)))⟩

/-- A word that does not decode is illegal or reserved, and its fault says which (R310 rows 1 to 6). -/
theorem decodeFields_error {r : Request} {c : FaultCode} (h : decodeFields r = .error c) :
    (c = .illegalEncoding ∧ IllegalWord r.cw) ∨ (c = .reservedOp ∧ ReservedWord r.cw) := by
  unfold decodeFields at h
  split at h
  case isTrue hrsv =>
    cases h
    exact .inl ⟨rfl, .inl (mt (reservedField_eq_zero_iff r.cw).mpr hrsv)⟩
  case isFalse hrsv =>
    have hzero := (reservedField_eq_zero_iff r.cw).mp (not_not.mp hrsv)
    split at h
    case h_1 hw =>
      cases h
      rw [widthOfCode_eq_none_iff, toNat_widthField] at hw
      exact .inl ⟨rfl, .inr (.inl hw)⟩
    case h_2 w hw =>
      have hle : widthNumber r.cw ≤ 4 := by
        rw [← toNat_widthField, ← widthCode_widthOfCode hw]
        exact widthCode_le w
      simp only [reservedOp_iff, toNat_opField] at h
      split at h
      case isTrue hres =>
        cases h
        exact .inr ⟨rfl, hzero, hle, hres⟩
      case isFalse hres =>
        split at h
        case h_2 => cases h
        case h_1 hop =>
          cases h
          exact .inl (decodeOp_error hw hres hop)

/-- Every word is legal, or decoding it faults with the code of the kind it is. -/
theorem legalWord_or_decode_error (cw : ControlWord) (a b : BitVec 128) :
    LegalWord cw ∨ (IllegalWord cw ∧ decode ⟨cw, a, b⟩ = .error .illegalEncoding) ∨
      (ReservedWord cw ∧ decode ⟨cw, a, b⟩ = .error .reservedOp) := by
  cases hf : decodeFields ⟨cw, a, b⟩ with
  | ok f => exact .inl ((legalWord_iff_decode cw a b).mpr ⟨rowOf f, by simp [decode, hf]⟩)
  | error c =>
    have hd : decode ⟨cw, a, b⟩ = .error c := by simp [decode, hf]
    rcases decodeFields_error hf with ⟨rfl, hillegal⟩ | ⟨rfl, hreserved⟩
    · exact .inr (.inl ⟨hillegal, hd⟩)
    · exact .inr (.inr ⟨hreserved, hd⟩)

theorem not_reservedWord_of_legal {cw : ControlWord} (h : LegalWord cw) : ¬ReservedWord cw := by
  obtain ⟨op, sg, w, bits, rfl, -⟩ := legalWord_iff_packWord.mp h
  rintro ⟨-, -, hop⟩
  rw [← toNat_opField, opField_packWord] at hop
  exact not_mem_listedOps_of_reserved hop (opCode_mem_listedOps op)

theorem not_illegalWord_of_legal {cw : ControlWord} (h : LegalWord cw) : ¬IllegalWord cw := by
  obtain ⟨op, sg, w, bits, rfl, h128⟩ := legalWord_iff_packWord.mp h
  simp only [IllegalWord, ← toNat_reservedField, ← toNat_widthField, ← toNat_opField, ← toNat_bitsField,
    reservedField_packWord, widthField_packWord, opField_packWord, bitsField_packWord, opCode_mem_only128Ops_iff]
  rintro (hrsv | hw | ⟨hop, -⟩ | ⟨honly, hw⟩ | ⟨honly, hbits⟩)
  · exact hrsv rfl
  · exact absurd (widthCode_le w) (by omega)
  · exact hop (opCode_mem_listedOps op)
  · exact hw ((widthCode_eq_four_iff w).mpr (h128 honly).1)
  · exact hbits (by rw [(h128 honly).2]; rfl)

theorem not_illegalWord_of_reserved {cw : ControlWord} (h : ReservedWord cw) : ¬IllegalWord cw := by
  obtain ⟨hrsv, hw, hop⟩ := h
  have honly : opNumber cw ∉ only128Ops := fun hmem =>
    not_mem_listedOps_of_reserved hop (mem_listedOps_of_mem_only128Ops hmem)
  rintro (hne | hge | ⟨-, h0F, h13⟩ | ⟨hmem, -⟩ | ⟨hmem, -⟩)
  · exact hne hrsv
  · omega
  · exact hop.elim h0F h13
  · exact honly hmem
  · exact honly hmem

/-- A rejected word faults with the decoder's code. -/
theorem step_request_error_of_unfaulted {s : State} {r : Request} {rest : List HostAction} {c : FaultCode}
    (hhost : s.host = .request r :: rest) (hf : s.fault = 0x00#8) (hd : decode r = .error c) :
    step s = .next (faulted c { s with host := rest }) := by
  rw [step_request_error hhost hd]
  exact rejectRequest_of_unfaulted (s := { s with host := rest }) hf c

/-- Settles O44: a word's kind is the answer of the decoder, and no word is of two kinds. -/
theorem everyControlWordIsOneKind : Obligations.EveryControlWordIsOneKind := by
  intro cw a b rest s hhost hf
  refine ⟨?kinds, legalWord_iff_decode cw a b, ?reserved, ?illegal⟩
  case kinds =>
    rcases legalWord_or_decode_error cw a b with hl | ⟨hi, -⟩ | ⟨hr, -⟩
    · exact .inl ⟨hl, not_reservedWord_of_legal hl, not_illegalWord_of_legal hl⟩
    · exact .inr (.inr ⟨fun hl => not_illegalWord_of_legal hl hi, fun hr => not_illegalWord_of_reserved hr hi, hi⟩)
    · exact .inr (.inl ⟨fun hl => not_reservedWord_of_legal hl hr, hr, not_illegalWord_of_reserved hr⟩)
  case reserved =>
    intro hr
    rcases legalWord_or_decode_error cw a b with hl | ⟨hi, -⟩ | ⟨-, hd⟩
    · exact absurd hr (not_reservedWord_of_legal hl)
    · exact absurd hi (not_illegalWord_of_reserved hr)
    · exact step_request_error_of_unfaulted hhost hf hd
  case illegal =>
    intro hi
    rcases legalWord_or_decode_error cw a b with hl | ⟨-, hd⟩ | ⟨hr, -⟩
    · exact absurd hi (not_illegalWord_of_legal hl)
    · exact step_request_error_of_unfaulted hhost hf hd
    · exact absurd hi (not_illegalWord_of_reserved hr)

/-! ## The worked encodings -/

theorem packWord_addoU8 : packWord (opCode .addo) (signBit .u) (widthCode .w8) 5#8 = 0x0000140C#32 := by decide
theorem packWord_addsI32 : packWord (opCode .adds) (signBit .i) (widthCode .w32) 32#8 = 0x00008150#32 := by decide
theorem packWord_clzU8 : packWord (opCode .clz) (signBit .u) (widthCode .w8) 5#8 = 0x00001418#32 := by decide
theorem packWord_shlU128 : packWord (opCode .shl) (signBit .u) (widthCode .w128) 128#8 = 0x00020205#32 := by decide
theorem packWord_makeI128 : packWord (opCode .make) (signBit .i) (widthCode .w128) 0#8 = 0x00000260#32 := by decide
theorem packWord_divFloorI64 : packWord (opCode .divFloor) (signBit .i) (widthCode .w64) 64#8 = 0x000101D6#32 := by decide

/-- A word known to be packed from a row's fields decodes to the row's instruction. -/
theorem decode_of_packWord_eq {cw : ControlWord} {op : Op} {sg : Sign} {w : Width} {bits : BitVec 8}
    (hcw : packWord (opCode op) (signBit sg) (widthCode w) bits = cw) (h : op.only128 = true → w = .w128 ∧ bits = 0#8)
    (a b : BitVec 128) : decode ⟨cw, a, b⟩ = .ok (rowOf ⟨op, sg, w, bits, a, b⟩) :=
  hcw ▸ decode_packWord h sg a b

/-- Settles O41: each word of the table is packed from its row's fields, which gives both directions. -/
theorem workedEncodings : Obligations.WorkedEncodings := by
  refine ⟨?_, ?_, ?_, ?_, ?_, ?_, packWord_addoU8, fun _ _ => packWord_addsI32, packWord_clzU8, fun _ => packWord_shlU128,
    fun _ _ => packWord_makeI128, packWord_divFloorI64⟩
  · exact decode_of_packWord_eq packWord_addoU8 (by decide) _ _
  · intro a b
    rw [decode_of_packWord_eq packWord_addsI32 (by decide)]
    simp [rowOf, addsRow, Width.bits]
  · exact decode_of_packWord_eq packWord_clzU8 (by decide) _ _
  · intro a
    rw [decode_of_packWord_eq packWord_shlU128 (by decide)]
    simp [rowOf, shlRow, Width.bits]
  · intro a b
    rw [decode_of_packWord_eq packWord_makeI128 (by decide)]
    simp [rowOf, makeRow]
  · exact decode_of_packWord_eq packWord_divFloorI64 (by decide) _ _

/-! ## Result widths and flags -/

/-- A latch of a known width holds a value of that width. -/
theorem latch_eq_of_width {l : Latch} {n : Nat} (h : l.width = n) : ∃ y : BitVec n, l = ⟨n, y⟩ := by
  subst h
  exact ⟨l.value, rfl⟩

theorem writesOvf_iff (op : Op) : op.writesOvf = true ↔ op ∈ [Op.addo, .subo, .mulo] := by
  cases op <;> decide

/-- Settles O60: a step to an unfaulted state completes, with a latch of the operation's width and the operation's flag. -/
theorem resultWidthsAndFlags : Obligations.ResultWidthsAndFlags := by
  intro i s t _ hexec hunfaulted
  obtain ⟨-, ⟨c, rfl⟩ | ⟨l, o, rfl, hwidth, hflag⟩⟩ := exec_next hexec
  · exact absurd hunfaulted (code_ne_zero c)
  · refine ⟨?res, by rw [complete_ovf, hflag, writesOvf_iff]⟩
    case res =>
      rw [complete_res]
      simp only [Option.some.injEq]
      apply latch_eq_of_width
      rw [hwidth]
      cases (fieldsOf i).op <;> rfl

end Sys2Proof.Machine
end

section
/-!
PROOFS. WRAP, NOT, AND, OR, XOR, SHL and SHR (40_wrap_bitwise_shift.md R121 to R128). First what any row's control word and checks
give (R81, R310), then what each operation does to values and bits, then the statements.
-/

namespace Sys2Proof.Machine

/-! ## The control word and the checks of a row -/

/-- An instruction's control word is the table word of its fields. -/
theorem encode_cw (i : Instr) :
    (encode i).cw = tableWord (opCode (fieldsOf i).op).toNat (fieldsOf i).sg (fieldsOf i).w (fieldsOf i).bits :=
  (tableWord_eq_packWord _ _ _ _).symm

theorem one_le_bits (w : Width) : 1 ≤ w.bits := by cases w <;> decide

theorem widthCheck_applies_iff {w : Width} {bits : BitVec 8} :
    (widthCheck w.bits bits.toNat).1 = true ↔ ¬LegalWidth w bits := by
  simp only [widthCheck, Bool.or_eq_true, decide_eq_true_eq]
  omega

section
variable {i : Instr} {s : State} {sg : Sign} {w : Width} {bits : BitVec 8} {a b : BitVec w.bits}
  {rest : List (Bool × FaultCode)} {l : Latch} {o : Option Bool}

/-- The width check passes a legal LogicalWidth on to the checks after it. -/
theorem firstFault_widthCheck (hw : LegalWidth w bits) :
    firstFault (widthCheck w.bits bits.toNat :: rest) = firstFault rest := by
  rw [firstFault, if_neg (by rw [widthCheck_applies_iff]; exact not_not.mpr hw)]

/-- The canonicity check passes a canonical operand on to the checks after it. -/
theorem firstFault_canonicalCheck :
    firstFault (canonicalCheck sg bits.toNat a :: rest) =
      if canonical sg bits.toNat a = true then firstFault rest else some .nonCanonicalOperand := by
  cases h : canonical sg bits.toNat a <;> simp [canonicalCheck, h]

/-- An instruction that checks its LogicalWidth first faults on an illegal one. -/
theorem faultsOnWidth_of_serve (he : exec i s = serve (widthCheck w.bits bits.toNat :: rest) l o s) (hs : s.fault = 0x00#8) :
    FaultsOnWidth i w bits s := by
  intro hw
  rw [he]
  refine serve_faults hs ?_ l o
  rw [firstFault, if_pos (widthCheck_applies_iff.mpr hw)]
  rfl

/-- An instruction that checks its LogicalWidth and then one operand faults on an operand that is not canonical. -/
theorem faultsOnOperands_of_serve
    (he : exec i s = serve (widthCheck w.bits bits.toNat :: canonicalCheck sg bits.toNat a :: rest) l o s)
    (hs : s.fault = 0x00#8) : FaultsOnOperands i w bits (canonical sg bits.toNat a) s := by
  intro hw ha
  rw [he]
  refine serve_faults hs ?_ l o
  rw [firstFault_widthCheck hw, firstFault_canonicalCheck, ha]
  rfl

/-- An instruction that checks its LogicalWidth and then two operands faults when one of them is not canonical. -/
theorem faultsOnOperands_of_serve_two
    (he : exec i s = serve (widthCheck w.bits bits.toNat :: canonicalCheck sg bits.toNat a ::
      canonicalCheck sg bits.toNat b :: rest) l o s)
    (hs : s.fault = 0x00#8) : FaultsOnOperands i w bits (canonical sg bits.toNat a && canonical sg bits.toNat b) s := by
  intro hw hab
  rw [he]
  refine serve_faults hs ?_ l o
  rw [firstFault_widthCheck hw, firstFault_canonicalCheck, firstFault_canonicalCheck]
  cases ha : canonical sg bits.toNat a
  case false => rfl
  case true =>
    have hb : canonical sg bits.toNat b = false := by simpa [ha] using hab
    simp [hb]

theorem firstFault_unaryChecks (hw : LegalWidth w bits) (ha : canonical sg bits.toNat a = true) :
    firstFault (unaryChecks sg w.bits bits.toNat a) = none := by
  rw [unaryChecks, firstFault_widthCheck hw, firstFault_canonicalCheck, if_pos ha]
  rfl

theorem firstFault_binaryChecks (hw : LegalWidth w bits) (ha : canonical sg bits.toNat a = true)
    (hb : canonical sg bits.toNat b = true) : firstFault (binaryChecks sg w.bits bits.toNat a b) = none := by
  rw [binaryChecks, firstFault_widthCheck hw, firstFault_canonicalCheck, if_pos ha, firstFault_canonicalCheck, if_pos hb]
  rfl

theorem firstFault_shiftChecks {amt : BitVec 8} (hw : LegalWidth w bits) (ha : canonical sg bits.toNat a = true) :
    firstFault (shiftChecks sg w.bits bits.toNat a amt) =
      if w.bits ≤ amt.toNat then some .shiftAmountOutOfRange else none := by
  rw [shiftChecks, firstFault_widthCheck hw, firstFault_canonicalCheck, if_pos ha]
  simp [shiftCheck]

/-- A shift faults on an amount of N or more (R306). -/
theorem faultsOnAmount_of_serve {amt : BitVec 8} (he : exec i s = serve (shiftChecks sg w.bits bits.toNat a amt) l o s)
    (hs : s.fault = 0x00#8) (hw : LegalWidth w bits) (ha : canonical sg bits.toNat a = true)
    (hamt : w.bits ≤ amt.toNat) : exec i s = .next (faulted .shiftAmountOutOfRange s) := by
  rw [he]
  exact serve_faults hs (by rw [firstFault_shiftChecks hw ha, if_pos hamt]) l o

/-- A shift by an amount below N completes. -/
theorem completes_of_shiftChecks {amt : BitVec 8} {y : BitVec w.bits}
    (he : exec i s = serve (shiftChecks sg w.bits bits.toNat a amt) ⟨w.bits, y⟩ none s)
    (hs : s.fault = 0x00#8) (hw : LegalWidth w bits) (ha : canonical sg bits.toNat a = true)
    (hamt : amt.toNat < w.bits) : exec i s = .next (completed y s) := by
  rw [he]
  exact serve_completes hs (by rw [firstFault_shiftChecks hw ha, if_neg (Nat.not_le.mpr hamt)]) _ _

/-- WRAP completes on every operand (R93). -/
theorem exec_wrapRow_of_legal (hs : s.fault = 0x00#8) (hw : LegalWidth w bits) (x : BitVec w.bits) :
    exec (wrapRow sg w bits x) s = .next (completed (wrapValue sg bits.toNat x) s) := by
  rw [exec_wrapRow]
  exact serve_completes hs (firstFault_widthCheck hw) _ _
end

/-! ## Reduction and the value of WRAP -/

section
variable (sg : Sign) {bits n : Nat}

/-- Reading back an encoding gives the value reduced to the container. -/
theorem val_enc_eq_wrapv (n : Nat) (v : Int) : val sg (enc n v) = wrapv sg n v := by
  cases sg
  case u =>
    have hpos : (0 : Int) < (2 ^ n : Nat) := by positivity
    simp only [val, enc, wrapv, BitVec.toNat_ofInt]
    exact Int.toNat_of_nonneg (Int.emod_nonneg v hpos.ne')
  case i => exact BitVec.toInt_ofInt v

/-- Values congruent modulo 2^n have one n-bit encoding. -/
theorem enc_eq_of_dvd {v v' : Int} (h : (2 ^ n : Int) ∣ v - v') : enc n v = enc n v' := by
  apply val_injective .u
  rw [val_enc_eq_wrapv, val_enc_eq_wrapv]
  simp only [wrapv]
  push_cast
  exact Int.emod_eq_emod_iff_emod_sub_eq_zero.mpr (Int.emod_eq_zero_of_dvd h)

theorem enc_zero (n : Nat) : enc n 0 = 0#n := rfl

theorem enc_neg_one (n : Nat) : enc n (-1) = BitVec.allOnes n := by
  rw [enc, BitVec.ofInt_neg]
  exact BitVec.neg_one_eq_allOnes

theorem wrapv_of_mem_range {sg : Sign} {v : Int} (h1 : 1 ≤ bits) (h : minInt sg bits ≤ v ∧ v ≤ maxInt sg bits) :
    wrapv sg bits v = v :=
  eq_of_mem_range_of_dvd h1 (wrapv_mem_range sg v h1) h (two_pow_dvd_wrapv_sub sg bits v)

/-- An integer of the range that is congruent to a value is that value reduced. -/
theorem wrapv_eq_of_dvd {sg : Sign} {v x : Int} (h1 : 1 ≤ bits) (h : minInt sg bits ≤ x ∧ x ≤ maxInt sg bits)
    (hd : (2 ^ bits : Int) ∣ x - v) : wrapv sg bits v = x :=
  ((wrapvIsTheUniqueReduction sg bits v x h1).mpr ⟨h.1, h.2, hd⟩).symm

theorem minInt_nonpos (bits : Nat) : minInt sg bits ≤ 0 := by
  cases sg <;> simp [minInt]

/-- Twice the lower bound of a range is 0 or minus the size of the range. -/
theorem two_pow_dvd_two_mul_minInt (h1 : 1 ≤ bits) : (2 ^ bits : Int) ∣ 2 * minInt sg bits := by
  obtain ⟨m, rfl⟩ : ∃ m, bits = m + 1 := ⟨bits - 1, by omega⟩
  cases sg
  case u => exact dvd_zero _
  case i =>
    refine ⟨-1, ?_⟩
    rw [minInt, Nat.add_sub_cancel]
    push_cast
    ring

theorem maxInt_nonneg (bits : Nat) : 0 ≤ maxInt sg bits := by
  have hpos := Nat.two_pow_pos bits
  have hpos' := Nat.two_pow_pos (bits - 1)
  cases sg <;> simp only [maxInt] <;> omega

/-- WRAP gives the extension of the operand's reduced value (R121). -/
theorem val_wrapValue (a : BitVec n) (hb : bits ≤ n) : val sg (wrapValue sg bits a) = wrapv sg bits (val sg a) := by
  rw [wrapValue, val_extend sg _ hb, lowBits_eq_enc sg a hb, val_enc_eq_wrapv]

theorem canonical_wrapValue (a : BitVec n) (h1 : 1 ≤ bits) (hb : bits ≤ n) :
    canonical sg bits (wrapValue sg bits a) = true := by
  rw [canonical_iff, val_wrapValue sg a hb]
  exact wrapv_mem_range sg _ h1

/-- WRAP leaves a canonical operand as it is. -/
theorem wrapValue_of_canonical {sg : Sign} {a : BitVec n} (h1 : 1 ≤ bits) (hb : bits ≤ n)
    (ha : canonical sg bits a = true) : wrapValue sg bits a = a :=
  ((canonical_iff_extend_lowBits sg a h1 hb).mp ha).symm

/-- WRAP keeps the low bits and fills the others with zeros, or with copies of bit `bits-1` (R121). -/
theorem getLsbD_wrapValue (a : BitVec n) {k : Nat} (h1 : 1 ≤ bits) (hk : k < n) :
    (wrapValue sg bits a).getLsbD k =
      if k < bits then a.getLsbD k else decide (sg = .i) && a.getLsbD (bits - 1) := by
  have hmsb : (lowBits bits a).msb = a.getLsbD (bits - 1) := by
    rw [BitVec.msb_eq_getLsbD_last, getLsbD_lowBits]
    simp [show bits - 1 < bits by omega]
  rw [wrapValue, getLsbD_extend sg n _ k hk, hmsb]
  split
  case isTrue hlow => rw [getLsbD_lowBits, decide_eq_true hlow, Bool.true_and]
  case isFalse => rfl

/-- WRAP of an encoding encodes the reduced value: the bits above the container do not matter to the reduction. -/
theorem wrapValue_enc (v : Int) (hb : bits ≤ n) : wrapValue sg bits (enc n v) = enc n (wrapv sg bits v) := by
  have hlow : lowBits bits (enc n v) = enc bits v := by
    rw [lowBits_eq_enc sg _ hb, val_enc_eq_wrapv]
    exact enc_eq_of_dvd ((pow_dvd_pow 2 hb).trans (two_pow_dvd_wrapv_sub sg n v))
  rw [← enc_val sg (wrapValue sg bits (enc n v)), wrapValue, val_extend sg _ hb, hlow, val_enc_eq_wrapv]
end

/-! ## Complement and the bitwise operations -/

/-- The complement encodes -x - 1, whichever way x is read. -/
theorem not_eq_enc (sg : Sign) {n : Nat} (x : BitVec n) : ~~~x = enc n (-val sg x - 1) := by
  have h : enc n (-val sg x - 1) = -enc n (val sg x) - 1#n := by
    rw [sub_eq_add_neg, enc, BitVec.ofInt_add, BitVec.ofInt_neg, BitVec.ofInt_neg, BitVec.sub_eq_add_neg]
    rfl
  rw [h, enc_val, BitVec.not_eq_neg_add]

/-- Complementing within (s, bits) mirrors the range (R122). -/
theorem val_wrapValue_not (sg : Sign) {bits n : Nat} {a : BitVec n} (h1 : 1 ≤ bits) (hb : bits ≤ n)
    (ha : canonical sg bits a = true) :
    val sg (wrapValue sg bits (~~~a)) = minInt sg bits + maxInt sg bits - val sg a := by
  obtain ⟨hmin, hmax⟩ := canonical_iff.mp ha
  have hmirror : minInt sg bits ≤ minInt sg bits + maxInt sg bits - val sg a ∧
      minInt sg bits + maxInt sg bits - val sg a ≤ maxInt sg bits := ⟨by linarith, by linarith⟩
  have hd : (2 ^ bits : Int) ∣ minInt sg bits + maxInt sg bits - val sg a - (-val sg a - 1) := by
    have hspan : minInt sg bits + maxInt sg bits - val sg a - (-val sg a - 1) = 2 * minInt sg bits + 2 ^ bits := by
      rw [maxInt_eq sg h1]
      ring
    rw [hspan]
    exact dvd_add (two_pow_dvd_two_mul_minInt sg h1) dvd_rfl
  rw [not_eq_enc sg a, wrapValue_enc sg _ hb, wrapv_eq_of_dvd h1 hmirror hd]
  exact (val_enc_of_mem sg h1 hb hmirror.1 hmirror.2).1

/-- A vector whose bits are a function of the operands' bits is canonical where the operands are. -/
theorem canonical_of_bitwise {sg : Sign} {bits n : Nat} {a b c : BitVec n} (f : Bool → Bool → Bool)
    (hf : f false false = false) (hc : ∀ k, c.getLsbD k = f (a.getLsbD k) (b.getLsbD k)) (h1 : 1 ≤ bits) (hb : bits ≤ n)
    (hca : canonical sg bits a = true) (hcb : canonical sg bits b = true) : canonical sg bits c = true := by
  rw [canonical_iff_getLsbD sg _ h1 hb] at hca hcb ⊢
  intro k hk hkn
  rw [hc, hc, hca k hk hkn, hcb k hk hkn]
  cases sg
  case u => simpa using hf
  case i => simp

/-- What a row answers whose result is a bitwise function of two checked operands (R123 to R125). -/
theorem bitwise_row_answers {i : Instr} {s : State} {sg : Sign} {w : Width} {bits : BitVec 8} {a b y : BitVec w.bits}
    (f : Bool → Bool → Bool) (hf : f false false = false)
    (he : exec i s = serve (binaryChecks sg w.bits bits.toNat a b) ⟨w.bits, y⟩ none s)
    (hy : ∀ k, y.getLsbD k = f (a.getLsbD k) (b.getLsbD k)) (hs : s.fault = 0x00#8) :
    FaultsOnWidth i w bits s ∧
      FaultsOnOperands i w bits (canonical sg bits.toNat a && canonical sg bits.toNat b) s ∧
      (LegalWidth w bits → canonical sg bits.toNat a = true → canonical sg bits.toNat b = true →
        exec i s = .next (completed y s) ∧ canonical sg bits.toNat y = true) := by
  refine ⟨faultsOnWidth_of_serve he hs, faultsOnOperands_of_serve_two he hs, fun hw ha hb => ⟨?completes, ?canonical⟩⟩
  case completes =>
    rw [he]
    exact serve_completes hs (firstFault_binaryChecks hw ha hb) _ _
  case canonical => exact canonical_of_bitwise f hf hy hw.1 hw.2 ha hb

/-! ## Shifts -/

/-- A left shift encodes the product with the power of two, whichever way the operand is read. -/
theorem shiftLeft_eq_enc (sg : Sign) {n : Nat} (a : BitVec n) (k : Nat) : a <<< k = enc n (val sg a * 2 ^ k) := by
  have hpow : enc n (2 ^ k) = BitVec.twoPow n k := by
    apply BitVec.eq_of_toNat_eq
    have hcast : ((2 : Int) ^ k) = ((2 ^ k : Nat) : Int) := by push_cast; rfl
    rw [enc, hcast, BitVec.ofInt_natCast, BitVec.toNat_twoPow, BitVec.toNat_ofNat]
  have hmul : enc n (val sg a * 2 ^ k) = enc n (val sg a) * enc n (2 ^ k) := BitVec.ofInt_mul _ _
  rw [hmul, enc_val, hpow, BitVec.shiftLeft_eq_mul_twoPow]

/-- Shifting out all `bits` bits leaves a multiple of 2^bits, which reduces to 0. -/
theorem wrapv_mul_two_pow_eq_zero (sg : Sign) {bits k : Nat} (v : Int) (h1 : 1 ≤ bits) (hk : bits ≤ k) :
    wrapv sg bits (v * 2 ^ k) = 0 := by
  refine wrapv_eq_of_dvd h1 ⟨minInt_nonpos sg bits, maxInt_nonneg sg bits⟩ ?_
  rw [zero_sub, dvd_neg]
  exact Dvd.dvd.mul_left (pow_dvd_pow 2 hk) v

/-- Floor division by a power of two is Euclidean division. -/
theorem fdiv_two_pow (v : Int) (k : Nat) : Int.fdiv v (2 ^ k) = v / 2 ^ k :=
  Int.fdiv_eq_ediv_of_nonneg v (by positivity)

/-- Floor division by a power of two stays within a range around 0. -/
theorem fdiv_two_pow_mem_range {sg : Sign} {bits : Nat} {v : Int} (k : Nat)
    (h : minInt sg bits ≤ v ∧ v ≤ maxInt sg bits) :
    minInt sg bits ≤ Int.fdiv v (2 ^ k) ∧ Int.fdiv v (2 ^ k) ≤ maxInt sg bits := by
  have hmin := minInt_nonpos sg bits
  have hmax := maxInt_nonneg sg bits
  have hpow : (1 : Int) ≤ 2 ^ k := one_le_pow₀ (by norm_num)
  rw [fdiv_two_pow, Int.le_ediv_iff_mul_le (by linarith), Int.ediv_le_iff_le_mul (by linarith)]
  constructor <;> nlinarith [h.1, h.2]

/-- A value below 2^k in magnitude is shifted out to 0 or to -1 (R127). -/
theorem fdiv_two_pow_of_small {v : Int} {k : Nat} (hlow : -2 ^ k ≤ v) (hhigh : v < 2 ^ k) :
    Int.fdiv v (2 ^ k) = if v < 0 then -1 else 0 := by
  rw [fdiv_two_pow]
  split
  case isTrue hneg => exact Int.ediv_eq_neg_one_of_neg_of_le hneg (by linarith)
  case isFalse hpos => exact Int.ediv_eq_zero_of_lt (not_lt.mp hpos) hhigh

/-- A value of (s, bits) lies below 2^k in magnitude for every k from `bits` up. -/
theorem lt_two_pow_of_mem_range {sg : Sign} {bits k : Nat} {v : Int} (h1 : 1 ≤ bits) (hk : bits ≤ k)
    (h : minInt sg bits ≤ v ∧ v ≤ maxInt sg bits) : -2 ^ k ≤ v ∧ v < 2 ^ k := by
  have hmin := minInt_nonpos sg bits
  have hmax := maxInt_nonneg sg bits
  have hspan := maxInt_eq sg h1
  have hpow : (2 : Int) ^ bits ≤ 2 ^ k := pow_le_pow_right₀ (by norm_num) hk
  constructor <;> linarith [h.1, h.2]

/-- Where all bits are shifted out, a container of copies of the sign is left: all ones for a negative value (R127). -/
theorem enc_sign_fill (sg : Sign) {n : Nat} (a : BitVec n) :
    enc n (if val sg a < 0 then -1 else 0) = if sg = .i ∧ a.toInt < 0 then BitVec.allOnes n else 0#n := by
  have hneg : val sg a < 0 ↔ sg = .i ∧ a.toInt < 0 := by
    cases sg
    case u => simp
    case i => simp
  simp only [hneg]
  split
  case isTrue => exact enc_neg_one n
  case isFalse => exact enc_zero n

/-- The arithmetic right shift encodes the floored quotient. -/
theorem sshiftRight_eq_enc {n : Nat} (a : BitVec n) (k : Nat) : a.sshiftRight k = enc n (Int.fdiv a.toInt (2 ^ k)) := by
  rw [BitVec.sshiftRight, Int.shiftRight_eq_div_pow, fdiv_two_pow, enc]
  push_cast
  rfl

/-- The shift by XOR with a sign mask is the arithmetic right shift (R128). -/
theorem signMaskShr_eq_sshiftRight {n : Nat} (a : BitVec n) (k : Nat) : signMaskShr a k = a.sshiftRight k := by
  rw [signMaskShr, ← BitVec.msb_eq_getLsbD_last]
  cases h : a.msb
  case true => simp [BitVec.sshiftRight_eq_of_msb_true h, BitVec.xor_allOnes]
  case false => simp [BitVec.sshiftRight_eq_of_msb_false h]

/-! ## The statements -/

/-- Settles O1: WRAP gives `wrapValue`, and the lemmas of `wrapValue` say its bits, its value and what it leaves as it is. -/
theorem wrapMasksOrSignExtends : Obligations.WrapMasksOrSignExtends := by
  intro sg w bits a s hs
  refine ⟨by rw [encode_cw, fieldsOf_wrapRow]; rfl, faultsOnWidth_of_serve (exec_wrapRow sg w bits a s) hs, fun hw => ?_⟩
  have hcanonical := canonical_wrapValue sg a hw.1 hw.2
  refine ⟨wrapValue sg bits.toNat a, exec_wrapRow_of_legal hs hw a, fun k hk => getLsbD_wrapValue sg a hw.1 hk,
    val_wrapValue sg a hw.2, hcanonical, ?full, ?again⟩
  case full =>
    intro hfull
    apply wrapValue_of_canonical hw.1 hw.2
    rw [hfull]
    exact canonical_full sg a (one_le_bits w)
  case again => rw [exec_wrapRow_of_legal hs hw, wrapValue_of_canonical hw.1 hw.2 hcanonical]

/-- Settles O2: NOT is WRAP of the complement, which mirrors the value within the range of (s, bits). -/
theorem notComplementsWithinWidth : Obligations.NotComplementsWithinWidth := by
  intro sg w bits a s hs
  refine ⟨by rw [encode_cw, fieldsOf_notRow]; rfl, faultsOnWidth_of_serve (exec_notRow sg w bits a s) hs,
    faultsOnOperands_of_serve (exec_notRow sg w bits a s) hs, fun hw ha => ?_⟩
  have hmirror := val_wrapValue_not sg hw.1 hw.2 ha
  refine ⟨wrapValue sg bits.toNat (~~~a), ?completes, exec_wrapRow_of_legal hs hw _, ?unsigned, ?signed, ?bounds,
    canonical_wrapValue sg _ hw.1 hw.2⟩
  case completes =>
    rw [exec_notRow]
    exact serve_completes hs (firstFault_unaryChecks hw ha) _ _
  case unsigned =>
    rintro rfl
    simpa [minInt, maxInt] using hmirror
  case signed =>
    rintro rfl
    simpa [minInt, maxInt, sub_eq_add_neg, add_comm] using hmirror
  case bounds =>
    rintro rfl hmin
    rw [val_i, val_i, hmin] at hmirror
    linarith

/-- Settles O3: zeros, or sign copies, above `bits` in both operands give the same in their conjunction. -/
theorem andIsBitwiseConjunction : Obligations.AndIsBitwiseConjunction := by
  intro sg w bits a b s hs
  obtain ⟨hwidth, hoperands, hlegal⟩ :=
    bitwise_row_answers (· && ·) rfl (exec_andRow sg w bits a b s) (fun _ => BitVec.getLsbD_and) hs
  refine ⟨by rw [encode_cw, fieldsOf_andRow]; rfl, hwidth, hoperands, fun hw ha hb => ?_⟩
  obtain ⟨hexec, hcanonical⟩ := hlegal hw ha hb
  exact ⟨hexec, hcanonical, by rintro rfl; exact BitVec.and_self⟩

/-- Settles O4: as O3, for the disjunction. -/
theorem orIsBitwiseDisjunction : Obligations.OrIsBitwiseDisjunction := by
  intro sg w bits a b s hs
  obtain ⟨hwidth, hoperands, hlegal⟩ :=
    bitwise_row_answers (· || ·) rfl (exec_orRow sg w bits a b s) (fun _ => BitVec.getLsbD_or) hs
  refine ⟨by rw [encode_cw, fieldsOf_orRow]; rfl, hwidth, hoperands, fun hw ha hb => ?_⟩
  obtain ⟨hexec, hcanonical⟩ := hlegal hw ha hb
  exact ⟨hexec, hcanonical, by rintro rfl; exact BitVec.or_self⟩

/-- Settles O5: as O3, for the exclusive disjunction. -/
theorem xorIsBitwiseExclusiveOr : Obligations.XorIsBitwiseExclusiveOr := by
  intro sg w bits a b s hs
  obtain ⟨hwidth, hoperands, hlegal⟩ :=
    bitwise_row_answers Bool.xor rfl (exec_xorRow sg w bits a b s) (fun _ => BitVec.getLsbD_xor) hs
  refine ⟨by rw [encode_cw, fieldsOf_xorRow]; rfl, hwidth, hoperands, fun hw ha hb => ?_⟩
  obtain ⟨hexec, hcanonical⟩ := hlegal hw ha hb
  exact ⟨hexec, hcanonical, by rintro rfl; exact BitVec.xor_self⟩

/-- Settles O6: the shifted container encodes A * 2^amt, so WRAP of it and the reduced product are one vector. -/
theorem shlReducesTheShiftedValue : Obligations.ShlReducesTheShiftedValue := by
  intro sg w bits a b s hs
  refine ⟨by rw [encode_cw, fieldsOf_shlRow]; rfl, faultsOnWidth_of_serve (exec_shlRow sg w bits a b s) hs,
    faultsOnOperands_of_serve (exec_shlRow sg w bits a b s) hs, ?outOfRange, ?inRange⟩
  case outOfRange =>
    exact faultsOnAmount_of_serve (exec_shlRow sg w bits a b s) hs
  case inRange =>
    intro hw ha hamt
    have hwrap : wrapValue sg bits.toNat (a <<< b.toNat) =
        enc w.bits (wrapv sg bits.toNat (val sg a * 2 ^ b.toNat)) := by
      rw [shiftLeft_eq_enc sg a, wrapValue_enc sg _ hw.2]
    refine ⟨_, ?completes, rfl, ?wrap, ?canonical, ?zero, ?out⟩
    case completes =>
      rw [completes_of_shiftChecks (exec_shlRow sg w bits a b s) hs hw ha hamt, Nat.cast_pow, Nat.cast_ofNat]
    case wrap => rw [exec_wrapRow_of_legal hs hw, hwrap]
    case canonical =>
      rw [← hwrap]
      exact canonical_wrapValue sg _ hw.1 hw.2
    case zero =>
      intro hzero
      rw [hzero, pow_zero, mul_one, wrapv_of_mem_range hw.1 (canonical_iff.mp ha), enc_val]
    case out =>
      intro hout
      rw [wrapv_mul_two_pow_eq_zero sg _ hw.1 hout]
      exact enc_zero w.bits

/-- Settles O7: the floored quotient stays in the range of (s, bits), so it is read back from its encoding. -/
theorem shrFloorsTheQuotient : Obligations.ShrFloorsTheQuotient := by
  intro sg w bits a b s hs
  refine ⟨by rw [encode_cw, fieldsOf_shrRow]; rfl, faultsOnWidth_of_serve (exec_shrRow sg w bits a b s) hs,
    faultsOnOperands_of_serve (exec_shrRow sg w bits a b s) hs, ?outOfRange, ?inRange⟩
  case outOfRange =>
    exact faultsOnAmount_of_serve (exec_shrRow sg w bits a b s) hs
  case inRange =>
    intro hw ha hamt
    have hrange := canonical_iff.mp ha
    obtain ⟨hmin, hmax⟩ := fdiv_two_pow_mem_range b.toNat hrange
    obtain ⟨hval, hcanonical⟩ := val_enc_of_mem sg hw.1 hw.2 hmin hmax
    refine ⟨_, ?completes, rfl, hval, hcanonical, ?zero, ?out⟩
    case completes =>
      rw [completes_of_shiftChecks (exec_shrRow sg w bits a b s) hs hw ha hamt, Nat.cast_pow, Nat.cast_ofNat, fdiv]
    case zero =>
      intro hzero
      rw [hzero, pow_zero, Int.fdiv_one, enc_val]
    case out =>
      intro hout
      obtain ⟨hlow, hhigh⟩ := lt_two_pow_of_mem_range hw.1 hout hrange
      rw [fdiv_two_pow_of_small hlow hhigh]
      exact enc_sign_fill sg a

/-- Settles O36: the shift by a sign mask and the encoded floor quotient are both the arithmetic right shift. -/
theorem signMaskShiftIsArithmetic : Obligations.SignMaskShiftIsArithmetic := by
  intro w a amt
  rw [signMaskShr_eq_sshiftRight, sshiftRight_eq_enc, fdiv]

end Sys2Proof.Machine
end

section
/-!
PROOFS. ADDW, SUBW and MULW (41_wrapping_arith.md R150 to R153). First how reduction behaves at the ends of a range and under
encoding, then what a row of the family answers, then the statements.
-/

namespace Sys2Proof.Machine

/-! ## Reduction at the ends of a range -/

section
variable (sg : Sign) {bits : Nat}

theorem minInt_le_maxInt (bits : Nat) : minInt sg bits ≤ maxInt sg bits :=
  (minInt_nonpos sg bits).trans (maxInt_nonneg sg bits)

theorem wrapv_zero (h1 : 1 ≤ bits) : wrapv sg bits 0 = 0 :=
  wrapv_of_mem_range h1 ⟨minInt_nonpos sg bits, maxInt_nonneg sg bits⟩

/-- One above the top of a range comes round to its bottom. -/
theorem wrapv_maxInt_add_one (h1 : 1 ≤ bits) : wrapv sg bits (maxInt sg bits + 1) = minInt sg bits := by
  refine wrapv_eq_of_dvd h1 ⟨le_rfl, minInt_le_maxInt sg bits⟩ ⟨-1, ?_⟩
  rw [maxInt_eq sg h1]
  ring

/-- One below the bottom of a range comes round to its top. -/
theorem wrapv_minInt_sub_one (h1 : 1 ≤ bits) : wrapv sg bits (minInt sg bits - 1) = maxInt sg bits := by
  refine wrapv_eq_of_dvd h1 ⟨minInt_le_maxInt sg bits, le_rfl⟩ ⟨1, ?_⟩
  rw [maxInt_eq sg h1]
  ring

/-- The negation of a range's bottom comes round to the bottom itself. -/
theorem wrapv_neg_minInt (h1 : 1 ≤ bits) : wrapv sg bits (-minInt sg bits) = minInt sg bits := by
  refine wrapv_eq_of_dvd h1 ⟨le_rfl, minInt_le_maxInt sg bits⟩ ?_
  rw [sub_neg_eq_add, ← two_mul]
  exact two_pow_dvd_two_mul_minInt sg h1

theorem minInt_i_le_neg_one (bits : Nat) : minInt .i bits ≤ -1 := by
  have hpos := Nat.two_pow_pos (bits - 1)
  simp only [minInt]
  omega

/-- Minus one is one below the bottom of an unsigned range. -/
theorem wrapv_u_neg_one (h1 : 1 ≤ bits) : wrapv .u bits (-1) = maxInt .u bits := by
  simpa [minInt] using wrapv_minInt_sub_one .u h1

/-- Minus one lies in every signed range. -/
theorem wrapv_i_neg_one (h1 : 1 ≤ bits) : wrapv .i bits (-1) = -1 := by
  have hmax := maxInt_nonneg .i bits
  exact wrapv_of_mem_range h1 ⟨minInt_i_le_neg_one bits, by linarith⟩
end

/-! ## Encoding and low bits -/

theorem enc_mul (n : Nat) (v v' : Int) : enc n (v * v') = enc n v * enc n v' := BitVec.ofInt_mul v v'

/-- Reduction to `bits` leaves the `bits`-bit encoding as it is. -/
theorem enc_wrapv (sg : Sign) (bits : Nat) (v : Int) : enc bits (wrapv sg bits v) = enc bits v :=
  enc_eq_of_dvd (two_pow_dvd_wrapv_sub sg bits v)

/-- A vector whose value is a reduced product has the product of the low bits as its low bits, at both signednesses (R153). -/
theorem lowBits_of_val_eq_wrapv_mul {sg : Sign} {bits n : Nat} {a b y : BitVec n} (hb : bits ≤ n)
    (hy : val sg y = wrapv sg bits (val sg a * val sg b)) : lowBits bits y = lowBits bits a * lowBits bits b := by
  calc lowBits bits y
    _ = enc bits (wrapv sg bits (val sg a * val sg b)) := by rw [lowBits_eq_enc sg y hb, hy]
    _ = enc bits (val sg a) * enc bits (val sg b) := by rw [enc_wrapv, enc_mul]
    _ = lowBits bits a * lowBits bits b := by rw [lowBits_eq_enc sg a hb, lowBits_eq_enc sg b hb]

/-! ## The rows of the family -/

/-- What a row answers that reduces the exact result of two checked operands (R150). -/
theorem wrapping_row_answers {i : Instr} {s : State} {exact : Int → Int → Int} {sg : Sign} {w : Width} {bits : BitVec 8}
    {a b : BitVec w.bits} (he : exec i s = wrapping exact sg w.bits bits a b s) (hs : s.fault = 0x00#8) :
    FaultsOnWidth i w bits s ∧
      FaultsOnOperands i w bits (canonical sg bits.toNat a && canonical sg bits.toNat b) s ∧
      (LegalWidth w bits → canonical sg bits.toNat a = true → canonical sg bits.toNat b = true →
        ∃ y : BitVec w.bits, exec i s = .next (completed y s) ∧
          y = enc w.bits (wrapv sg bits.toNat (exact (val sg a) (val sg b))) ∧
          val sg y = wrapv sg bits.toNat (exact (val sg a) (val sg b)) ∧ canonical sg bits.toNat y = true) := by
  refine ⟨faultsOnWidth_of_serve he hs, faultsOnOperands_of_serve_two he hs, fun hw ha hb => ?_⟩
  obtain ⟨hmin, hmax⟩ := wrapv_mem_range sg (exact (val sg a) (val sg b)) hw.1
  have hexec := he.trans (serve_completes hs (firstFault_binaryChecks hw ha hb) _ _)
  exact ⟨_, hexec, rfl, val_enc_of_mem sg hw.1 hw.2 hmin hmax⟩

/-! ## The statements -/

/-- Settles O8: the value of the result is the reduced sum, which is congruent to the sum. -/
theorem addwWrapsTheSum : Obligations.AddwWrapsTheSum := by
  intro sg w bits a b s hs
  obtain ⟨hwidth, hoperands, hlegal⟩ := wrapping_row_answers (exec_addwRow sg w bits a b s) hs
  refine ⟨by rw [encode_cw, fieldsOf_addwRow]; rfl, hwidth, hoperands, fun hw ha hb => ?_⟩
  obtain ⟨y, hexec, henc, hval, hcanonical⟩ := hlegal hw ha hb
  have hcongruent : (2 ^ bits.toNat : Int) ∣ val sg y - (val sg a + val sg b) := by
    rw [hval]
    exact two_pow_dvd_wrapv_sub sg bits.toNat _
  refine ⟨y, hexec, henc, hcanonical, hcongruent, ?maxPlusOne, ?double⟩
  case maxPlusOne =>
    intro hmax hone
    rw [hval, hmax, hone]
    exact wrapv_maxInt_add_one sg hw.1
  case double =>
    rintro rfl
    rwa [two_mul]

/-- Settles O9: the value of the result is the reduced difference; its corner cases are those of reduction. -/
theorem subwWrapsTheDifference : Obligations.SubwWrapsTheDifference := by
  intro sg w bits a b s hs
  obtain ⟨hwidth, hoperands, hlegal⟩ := wrapping_row_answers (exec_subwRow sg w bits a b s) hs
  refine ⟨by rw [encode_cw, fieldsOf_subwRow]; rfl, hwidth, hoperands, fun hw ha hb => ?_⟩
  obtain ⟨y, hexec, henc, hval, hcanonical⟩ := hlegal hw ha hb
  refine ⟨y, hexec, henc, hcanonical, ?congruent, ?zeroMinusOne, ?minMinusOne, ?zeroMinusMin, ?self⟩
  case congruent =>
    rw [hval]
    exact two_pow_dvd_wrapv_sub sg bits.toNat _
  case zeroMinusOne =>
    intro hzero hone
    rw [hval, hzero, hone, zero_sub]
    cases sg
    case u => exact wrapv_u_neg_one hw.1
    case i => exact wrapv_i_neg_one hw.1
  case minMinusOne =>
    rintro rfl hmin hone
    rw [hval, hmin, hone]
    exact wrapv_minInt_sub_one .i hw.1
  case zeroMinusMin =>
    rintro rfl hzero hmin
    rw [hval, hzero, hmin, zero_sub]
    exact wrapv_neg_minInt .i hw.1
  case self =>
    rintro rfl
    rw [henc, sub_self, wrapv_zero sg hw.1]
    exact enc_zero w.bits

/-- Settles O10: the value of the result is the reduced product, and reduction keeps the low bits, on which the two readings
of an operand agree. -/
theorem mulwWrapsTheProduct : Obligations.MulwWrapsTheProduct := by
  intro sg w bits a b s hs
  obtain ⟨hwidth, hoperands, hlegal⟩ := wrapping_row_answers (exec_mulwRow sg w bits a b s) hs
  refine ⟨by rw [encode_cw, fieldsOf_mulwRow]; rfl, hwidth, hoperands, fun hw ha hb => ?_⟩
  obtain ⟨y, hexec, henc, hval, hcanonical⟩ := hlegal hw ha hb
  refine ⟨y, hexec, henc, hcanonical, lowBits_of_val_eq_wrapv_mul hw.2 hval, ?timesZero, ?timesOne, ?minTimesNegOne⟩
  case timesZero =>
    intro hzero
    rw [henc, hzero, mul_zero, wrapv_zero sg hw.1]
    exact enc_zero w.bits
  case timesOne =>
    intro hone
    rw [henc, hone, mul_one, wrapv_of_mem_range hw.1 (canonical_iff.mp ha), enc_val]
  case minTimesNegOne =>
    rintro rfl hmin hneg
    rw [hval, hmin, hneg, mul_neg_one]
    exact wrapv_neg_minInt .i hw.1

end Sys2Proof.Machine
end

section
/-!
PROOFS. ADDO, SUBO and MULO (42_overflow_checked.md R170 to R174). First when the flag is set, then the flag as the source composes
it (R171), then what a row of the family answers, then the statements.
-/

namespace Sys2Proof.Machine

/-! ## The flag -/

section
variable {sg : Sign} {bits : Nat} {v : Int}

theorem overflowFlag_iff : overflowFlag sg bits v = true ↔ v < minInt sg bits ∨ maxInt sg bits < v := by
  simp [overflowFlag]

/-- The flag is clear exactly on the range of (s, bits). -/
theorem overflowFlag_eq_false_iff : overflowFlag sg bits v = false ↔ minInt sg bits ≤ v ∧ v ≤ maxInt sg bits := by
  simp [overflowFlag]

/-- 0 lies in every range. -/
theorem overflowFlag_zero (sg : Sign) (bits : Nat) : overflowFlag sg bits 0 = false :=
  overflowFlag_eq_false_iff.mpr ⟨minInt_nonpos sg bits, maxInt_nonneg sg bits⟩

/-- A value outside the range of a container is outside the range of every LogicalWidth the container admits. -/
theorem overflowFlag_of_le {n : Nat} (hb : bits ≤ n) (h : overflowFlag sg n v = true) : overflowFlag sg bits v = true := by
  obtain ⟨hmin, hmax⟩ := range_mono sg hb
  rw [overflowFlag_iff] at h ⊢
  exact h.imp (fun hlow => hlow.trans_le hmin) (fun hhigh => hmax.trans_lt hhigh)

/-- The flag the source composes is the flag of R170: a value inside the container's range is read back from its encoding. -/
theorem composedFlag_eq_overflowFlag {n : Nat} (h1 : 1 ≤ bits) (hb : bits ≤ n) :
    composedFlag sg n bits v = overflowFlag sg bits v := by
  rw [composedFlag]
  cases hn : overflowFlag sg n v
  case true => rw [overflowFlag_of_le hb hn, Bool.true_or]
  case false =>
    obtain ⟨hmin, hmax⟩ := overflowFlag_eq_false_iff.mp hn
    rw [val_enc sg (h1.trans hb) hmin hmax, Bool.false_or]
end

/-! ## The flag of a sum and a difference, by the signs of the operands -/

/-- A signed range is its own image under complement. -/
theorem maxInt_i_eq (bits : Nat) : maxInt .i bits = -minInt .i bits - 1 := by
  simp [minInt, maxInt]

section
variable {bits n : Nat} {a b : BitVec n}

/-- The unsigned flag of a sum is the carry out of bit `bits-1` (R172). -/
theorem overflowFlag_u_add_iff :
    overflowFlag .u bits (val .u a + val .u b) = true ↔ 2 ^ bits ≤ a.toNat + b.toNat := by
  simp only [overflowFlag_iff, minInt, maxInt, val_u]
  omega

/-- The unsigned flag of a difference of operands in range is the borrow (R173). -/
theorem overflowFlag_u_sub_iff (ha : canonical .u bits a = true) :
    overflowFlag .u bits (val .u a - val .u b) = true ↔ a.toNat < b.toNat := by
  obtain ⟨-, hmax⟩ := canonical_iff.mp ha
  simp only [overflowFlag_iff, minInt, val_u] at hmax ⊢
  omega

/-- A signed sum leaves the range only where the operands have one sign (R172). -/
theorem same_sign_of_overflowFlag_add (ha : canonical .i bits a = true) (hb : canonical .i bits b = true)
    (h : overflowFlag .i bits (val .i a + val .i b) = true) : a.toInt < 0 ↔ b.toInt < 0 := by
  obtain ⟨hamin, hamax⟩ := canonical_iff.mp ha
  obtain ⟨hbmin, hbmax⟩ := canonical_iff.mp hb
  rw [overflowFlag_iff] at h
  simp only [val_i] at *
  omega

/-- A signed difference leaves the range only where the operands have different signs (R173). -/
theorem different_sign_of_overflowFlag_sub (ha : canonical .i bits a = true) (hb : canonical .i bits b = true)
    (h : overflowFlag .i bits (val .i a - val .i b) = true) : a.toInt < 0 ↔ 0 ≤ b.toInt := by
  obtain ⟨hamin, hamax⟩ := canonical_iff.mp ha
  obtain ⟨hbmin, hbmax⟩ := canonical_iff.mp hb
  have hmirror := maxInt_i_eq bits
  rw [overflowFlag_iff] at h
  simp only [val_i] at *
  omega
end

/-- The negation of a signed range's bottom is one above its top (R173, R174). -/
theorem overflowFlag_neg_minInt (bits : Nat) : overflowFlag .i bits (-minInt .i bits) = true := by
  rw [overflowFlag_iff, maxInt_i_eq]
  exact .inr (sub_one_lt _)

/-! ## The rows of the family -/

/-- What a row answers that reduces the exact result of two checked operands and flags it (R170): the result is that of the
wrapping row with the same exact result. -/
theorem checked_row_answers {i j : Instr} {s : State} {exact : Int → Int → Int} {sg : Sign} {w : Width} {bits : BitVec 8}
    {a b : BitVec w.bits} (hi : exec i s = checked exact sg w.bits bits a b s)
    (hj : exec j s = wrapping exact sg w.bits bits a b s) (hs : s.fault = 0x00#8) :
    FaultsOnWidth i w bits s ∧
      FaultsOnOperands i w bits (canonical sg bits.toNat a && canonical sg bits.toNat b) s ∧
      (LegalWidth w bits → canonical sg bits.toNat a = true → canonical sg bits.toNat b = true →
        ∃ y : BitVec w.bits,
          exec i s = .next (completedWithFlag y (overflowFlag sg bits.toNat (exact (val sg a) (val sg b))) s) ∧
          y = enc w.bits (wrapv sg bits.toNat (exact (val sg a) (val sg b))) ∧
          exec j s = .next (completed y s) ∧
          val sg y = wrapv sg bits.toNat (exact (val sg a) (val sg b))) := by
  refine ⟨faultsOnWidth_of_serve hi hs, faultsOnOperands_of_serve_two hi hs, fun hw ha hb => ?_⟩
  obtain ⟨-, -, hwrapping⟩ := wrapping_row_answers hj hs
  obtain ⟨y, hexec, rfl, hval, -⟩ := hwrapping hw ha hb
  exact ⟨_, hi.trans (serve_completes hs (firstFault_binaryChecks hw ha hb) _ _), rfl, hexec, hval⟩

/-! ## The statements -/

/-- Settles O39: within the container's range the N-bit result is the exact one, and outside it both flags are set. -/
theorem composedFlagIsTheExactFlag : Obligations.ComposedFlagIsTheExactFlag := by
  intro sg w bits exact hw
  rw [composedFlag_eq_overflowFlag hw.1 hw.2, overflowFlag_iff]

/-- Settles O11: the result is ADDW's, and the flag of the exact sum is a carry, or needs operands of one sign. -/
theorem addoFlagsTheSum : Obligations.AddoFlagsTheSum := by
  intro sg w bits a b s hs
  obtain ⟨hwidth, hoperands, hlegal⟩ :=
    checked_row_answers (exec_addoRow sg w bits a b s) (exec_addwRow sg w bits a b s) hs
  refine ⟨by rw [encode_cw, fieldsOf_addoRow]; rfl, hwidth, hoperands, fun hw ha hb => ?_⟩
  obtain ⟨y, hexec, henc, haddw, hval⟩ := hlegal hw ha hb
  refine ⟨y, _, hexec, henc, haddw, overflowFlag_iff, ?belowMax, ?maxPlusOne, ?carry, ?sameSign⟩
  case belowMax =>
    intro hmax hone
    have hrange : minInt sg bits.toNat ≤ maxInt sg bits.toNat ∧ maxInt sg bits.toNat ≤ maxInt sg bits.toNat :=
      ⟨minInt_le_maxInt sg bits.toNat, le_rfl⟩
    rw [hval, hmax, hone, sub_add_cancel]
    exact ⟨overflowFlag_eq_false_iff.mpr hrange, wrapv_of_mem_range hw.1 hrange⟩
  case maxPlusOne =>
    intro hmax hone
    rw [hmax, hone, overflowFlag_iff]
    exact .inr (lt_add_one _)
  case carry =>
    rintro rfl
    exact overflowFlag_u_add_iff
  case sameSign =>
    rintro rfl
    exact same_sign_of_overflowFlag_add ha hb

/-- Settles O12: the result is SUBW's, and the flag of the exact difference is a borrow, or needs operands of different
signs. -/
theorem suboFlagsTheDifference : Obligations.SuboFlagsTheDifference := by
  intro sg w bits a b s hs
  obtain ⟨hwidth, hoperands, hlegal⟩ :=
    checked_row_answers (exec_suboRow sg w bits a b s) (exec_subwRow sg w bits a b s) hs
  refine ⟨by rw [encode_cw, fieldsOf_suboRow]; rfl, hwidth, hoperands, fun hw ha hb => ?_⟩
  obtain ⟨y, hexec, henc, hsubw, -⟩ := hlegal hw ha hb
  refine ⟨y, _, hexec, henc, hsubw, overflowFlag_iff, ?borrow, ?zeroMinusMin, ?differentSign, ?self⟩
  case borrow =>
    rintro rfl
    exact overflowFlag_u_sub_iff ha
  case zeroMinusMin =>
    rintro rfl hzero hmin
    rw [val_i, val_i, hzero, hmin, zero_sub]
    exact overflowFlag_neg_minInt bits.toNat
  case differentSign =>
    rintro rfl
    exact different_sign_of_overflowFlag_sub ha hb
  case self =>
    rintro rfl
    rw [henc, sub_self, wrapv_zero sg hw.1]
    exact ⟨enc_zero w.bits, overflowFlag_zero sg bits.toNat⟩

/-- Settles O13: the result is MULW's, and minInt * -1 is one above maxInt. -/
theorem muloFlagsTheProduct : Obligations.MuloFlagsTheProduct := by
  intro sg w bits a b s hs
  obtain ⟨hwidth, hoperands, hlegal⟩ :=
    checked_row_answers (exec_muloRow sg w bits a b s) (exec_mulwRow sg w bits a b s) hs
  refine ⟨by rw [encode_cw, fieldsOf_muloRow]; rfl, hwidth, hoperands, fun hw ha hb => ?_⟩
  obtain ⟨y, hexec, henc, hmulw, hval⟩ := hlegal hw ha hb
  refine ⟨y, _, hexec, henc, hmulw, overflowFlag_iff, ?timesZero, ?minTimesNegOne, ?minTimesOne⟩
  case timesZero =>
    intro hzero
    rw [hzero, mul_zero]
    exact overflowFlag_zero sg bits.toNat
  case minTimesNegOne =>
    rintro rfl hmin hneg
    simp only [val_i, hmin, hneg, mul_neg_one] at hval ⊢
    exact ⟨overflowFlag_neg_minInt bits.toNat, hval.trans (wrapv_neg_minInt .i hw.1)⟩
  case minTimesOne =>
    rintro rfl - hone
    rw [val_i b, hone, mul_one]
    exact overflowFlag_eq_false_iff.mpr (canonical_iff.mp ha)

end Sys2Proof.Machine
end

section
/-!
PROOFS. ADDS, SUBS and MULS (43_saturating.md R190 to R194). First the clamp by where its argument lies, then the bound the operands'
signs imply (R191), then what a row of the family answers, then the statements.
-/

namespace Sys2Proof.Machine

/-! ## The clamp outside the range -/

section
variable {sg : Sign} {bits : Nat} {v : Int}

theorem clamp_of_lt_minInt (h : v < minInt sg bits) : clamp sg bits v = minInt sg bits := if_pos h

theorem clamp_of_maxInt_lt (h : maxInt sg bits < v) : clamp sg bits v = maxInt sg bits := by
  have hmin : ¬v < minInt sg bits := ((minInt_le_maxInt sg bits).trans h.le).not_gt
  rw [clamp, if_neg hmin, if_pos h]

theorem clamp_zero (sg : Sign) (bits : Nat) : clamp sg bits 0 = 0 :=
  clamp_of_mem (minInt_nonpos sg bits) (maxInt_nonneg sg bits)

/-- The negation of a signed range's bottom clamps to the top (R193, R194). -/
theorem clamp_neg_minInt (bits : Nat) : clamp .i bits (-minInt .i bits) = maxInt .i bits := by
  refine clamp_of_maxInt_lt ?_
  rw [maxInt_i_eq]
  exact sub_one_lt _

/-! ## The bound the operands' signs imply (R191)

The signs need only rule out one end of the range: going to the other bound on overflow is then the clamp. -/

/-- Going to the top on overflow is the clamp of a value that is not below the range. -/
theorem saturateTo_maxInt (h : minInt sg bits ≤ v) : saturateTo (maxInt sg bits) sg bits v = clamp sg bits v := by
  rw [saturateTo]
  split
  case isTrue hflag =>
    have hmax : maxInt sg bits < v := (overflowFlag_iff.mp hflag).resolve_left h.not_gt
    exact (clamp_of_maxInt_lt hmax).symm
  case isFalse hflag =>
    obtain ⟨-, hmax⟩ := overflowFlag_eq_false_iff.mp (Bool.eq_false_iff.mpr hflag)
    exact (clamp_of_mem h hmax).symm

/-- Going to the bottom on overflow is the clamp of a value that is not above the range. -/
theorem saturateTo_minInt (h : v ≤ maxInt sg bits) : saturateTo (minInt sg bits) sg bits v = clamp sg bits v := by
  rw [saturateTo]
  split
  case isTrue hflag =>
    have hmin : v < minInt sg bits := (overflowFlag_iff.mp hflag).resolve_right h.not_gt
    exact (clamp_of_lt_minInt hmin).symm
  case isFalse hflag =>
    obtain ⟨hmin, -⟩ := overflowFlag_eq_false_iff.mp (Bool.eq_false_iff.mpr hflag)
    exact (clamp_of_mem hmin h).symm
end

section
variable {sg : Sign} {bits : Nat} {x y : Int}

/-- A sum of two operands that are not negative is not below the range, and one with a negative operand is not above it. -/
theorem saturateTo_addBound (hx : minInt sg bits ≤ x ∧ x ≤ maxInt sg bits) (hy : minInt sg bits ≤ y ∧ y ≤ maxInt sg bits) :
    saturateTo (addBound sg bits x y) sg bits (x + y) = clamp sg bits (x + y) := by
  cases sg
  case u => exact saturateTo_maxInt (add_nonneg hx.1 hy.1)
  case i =>
    rw [addBound]
    split
    case isTrue hsigns => exact saturateTo_maxInt ((minInt_nonpos .i bits).trans (add_nonneg hsigns.1 hsigns.2))
    case isFalse hsigns => exact saturateTo_minInt (by omega)

/-- Taking a negative operand from one that is not negative does not go below the range, and where the signs are otherwise the
difference does not go above it. -/
theorem saturateTo_subBound (hx : minInt sg bits ≤ x ∧ x ≤ maxInt sg bits) (hy : minInt sg bits ≤ y ∧ y ≤ maxInt sg bits) :
    saturateTo (subBound sg bits x y) sg bits (x - y) = clamp sg bits (x - y) := by
  cases sg
  case u => exact saturateTo_minInt ((sub_le_self x hy.1).trans hx.2)
  case i =>
    have hmirror := maxInt_i_eq bits
    rw [subBound]
    split
    case isTrue hsigns => exact saturateTo_maxInt (by omega)
    case isFalse hsigns => exact saturateTo_minInt (by omega)

/-- A product is not negative where the operands have one sign, and not positive where they have two. -/
theorem saturateTo_mulBound (hx : minInt sg bits ≤ x) (hy : minInt sg bits ≤ y) :
    saturateTo (mulBound sg bits x y) sg bits (x * y) = clamp sg bits (x * y) := by
  cases sg
  case u => exact saturateTo_maxInt (mul_nonneg hx hy)
  case i =>
    rw [mulBound]
    split
    case isTrue hsame =>
      have hnonneg : 0 ≤ x * y := mul_nonneg_iff.mpr (by omega)
      exact saturateTo_maxInt ((minInt_nonpos .i bits).trans hnonneg)
    case isFalse hdifferent =>
      have hnonpos : x * y ≤ 0 := mul_nonpos_iff.mpr (by omega)
      exact saturateTo_minInt (hnonpos.trans (maxInt_nonneg .i bits))
end

/-! ## The rows of the family -/

/-- What a row answers that clamps the exact result of two checked operands (R190). -/
theorem saturating_row_answers {i : Instr} {s : State} {exact : Int → Int → Int} {sg : Sign} {w : Width} {bits : BitVec 8}
    {a b : BitVec w.bits} (he : exec i s = saturating exact sg w.bits bits a b s) (hs : s.fault = 0x00#8) :
    FaultsOnWidth i w bits s ∧
      FaultsOnOperands i w bits (canonical sg bits.toNat a && canonical sg bits.toNat b) s ∧
      (LegalWidth w bits → canonical sg bits.toNat a = true → canonical sg bits.toNat b = true →
        ∃ y : BitVec w.bits, exec i s = .next (completed y s) ∧
          y = enc w.bits (clamp sg bits.toNat (exact (val sg a) (val sg b))) ∧
          canonical sg bits.toNat y = true ∧
          val sg y = clamp sg bits.toNat (exact (val sg a) (val sg b))) := by
  refine ⟨faultsOnWidth_of_serve he hs, faultsOnOperands_of_serve_two he hs, fun hw ha hb => ?_⟩
  obtain ⟨hmin, hmax⟩ := clamp_mem_range sg bits.toNat (exact (val sg a) (val sg b))
  obtain ⟨hval, hcanonical⟩ := val_enc_of_mem sg hw.1 hw.2 hmin hmax
  exact ⟨_, he.trans (serve_completes hs (firstFault_binaryChecks hw ha hb) _ _), rfl, hcanonical, hval⟩

/-! ## The statements -/

/-- Settles O40: for each operation, the signs rule out the end of the range that the bound is not at. -/
theorem signBoundsAreTheClamp : Obligations.SignBoundsAreTheClamp := by
  intro sg bits x y _ hxmin hxmax hymin hymax
  exact ⟨saturateTo_addBound ⟨hxmin, hxmax⟩ ⟨hymin, hymax⟩, saturateTo_subBound ⟨hxmin, hxmax⟩ ⟨hymin, hymax⟩,
    saturateTo_mulBound hxmin hymin⟩

/-- Settles O14: the value of the result is the clamped sum; the signed range reaches one further down than up, so that the sum of
its ends is -1. -/
theorem addsClampsTheSum : Obligations.AddsClampsTheSum := by
  intro sg w bits a b s hs
  obtain ⟨hwidth, hoperands, hlegal⟩ := saturating_row_answers (exec_addsRow sg w bits a b s) hs
  refine ⟨by rw [encode_cw, fieldsOf_addsRow]; rfl, hwidth, hoperands, fun hw ha hb => ?_⟩
  obtain ⟨y, hexec, henc, hcanonical, hval⟩ := hlegal hw ha hb
  refine ⟨y, hexec, henc, hcanonical, fun hmin hmax => hval.trans (clamp_of_mem hmin hmax), ?maxPlusOne, ?minMinusOne, ?ends⟩
  case maxPlusOne =>
    intro hmax hone
    rw [hval, hmax, hone]
    exact clamp_of_maxInt_lt (lt_add_one _)
  case minMinusOne =>
    rintro rfl hmin hneg
    rw [hval, hmin, hneg]
    exact clamp_of_lt_minInt (by omega)
  case ends =>
    rintro rfl hmax hmin
    have hsum : maxInt .i bits.toNat + minInt .i bits.toNat = -1 := by
      rw [maxInt_i_eq]
      ring
    have hnonneg := maxInt_nonneg .i bits.toNat
    rw [hval, hmax, hmin, hsum]
    exact clamp_of_mem (minInt_i_le_neg_one bits.toNat) (by omega)

/-- Settles O15: the value of the result is the clamped difference; an unsigned difference below 0 goes to the bottom, which is
0. -/
theorem subsClampsTheDifference : Obligations.SubsClampsTheDifference := by
  intro sg w bits a b s hs
  obtain ⟨hwidth, hoperands, hlegal⟩ := saturating_row_answers (exec_subsRow sg w bits a b s) hs
  refine ⟨by rw [encode_cw, fieldsOf_subsRow]; rfl, hwidth, hoperands, fun hw ha hb => ?_⟩
  obtain ⟨y, hexec, henc, hcanonical, hval⟩ := hlegal hw ha hb
  refine ⟨y, hexec, henc, hcanonical, fun hmin hmax => hval.trans (clamp_of_mem hmin hmax), ?below, ?zeroMinusMin, ?self⟩
  case below =>
    rintro rfl hlt
    have hbelow : val .u a - val .u b < minInt .u bits.toNat := sub_neg.mpr (Int.ofNat_lt.mpr hlt)
    rw [henc, clamp_of_lt_minInt hbelow]
    exact enc_zero w.bits
  case zeroMinusMin =>
    rintro rfl hzero hmin
    rw [hval, hzero, hmin, zero_sub]
    exact clamp_neg_minInt bits.toNat
  case self =>
    rintro rfl
    rw [henc, sub_self, clamp_zero]
    exact enc_zero w.bits

/-- Settles O16: the value of the result is the clamped product, and minInt * -1 is one above maxInt. -/
theorem mulsClampsTheProduct : Obligations.MulsClampsTheProduct := by
  intro sg w bits a b s hs
  obtain ⟨hwidth, hoperands, hlegal⟩ := saturating_row_answers (exec_mulsRow sg w bits a b s) hs
  refine ⟨by rw [encode_cw, fieldsOf_mulsRow]; rfl, hwidth, hoperands, fun hw ha hb => ?_⟩
  obtain ⟨y, hexec, henc, hcanonical, hval⟩ := hlegal hw ha hb
  refine ⟨y, hexec, henc, hcanonical, fun hmin hmax => hval.trans (clamp_of_mem hmin hmax), ?minTimesNegOne, ?timesZero⟩
  case minTimesNegOne =>
    rintro rfl hmin hneg
    rw [hval, hmin, hneg, mul_neg_one]
    exact clamp_neg_minInt bits.toNat
  case timesZero =>
    intro hzero
    rw [henc, hzero, mul_zero, clamp_zero]
    exact enc_zero w.bits

end Sys2Proof.Machine
end

section
/-!
PROOFS. DIV_TRUNC, REM, DIV_FLOOR and MOD (44_division.md R210 to R216). First the integer divisions (R21): the truncating ones, then
the floor ones as their sign correction (R215), on which the rest of what is said of them rests. Then the range of the results, then
what a row of the family answers, then the statements.
-/

namespace Sys2Proof.Machine

/-! ## Truncating division -/

section
variable {a b : Int}

theorem abs_lt_abs_of_natAbs_lt (h : a.natAbs < b.natAbs) : |a| < |b| := by
  rw [Int.abs_eq_natAbs, Int.abs_eq_natAbs]
  exact Int.ofNat_lt.mpr h

theorem trem_eq_tmod (a b : Int) : trem a b = Int.tmod a b := (Int.tmod_def a b).symm

theorem natAbs_tdiv_eq (a b : Int) : (tdiv a b).natAbs = a.natAbs / b.natAbs := Int.natAbs_tdiv a b

/-- A quotient of two integers that are not negative lies between 0 and the dividend. -/
theorem tdiv_mem_of_nonneg (ha : 0 ≤ a) (hb : 0 ≤ b) : 0 ≤ tdiv a b ∧ tdiv a b ≤ a :=
  ⟨Int.tdiv_nonneg ha hb, Int.tdiv_le_self b ha⟩

theorem tdiv_eq_zero_of_natAbs_lt (h : a.natAbs < b.natAbs) : tdiv a b = 0 := by
  rw [← Int.natAbs_eq_zero, natAbs_tdiv_eq, Nat.div_eq_of_lt h]

/-- The truncating remainder is smaller in magnitude than the divisor (R212). -/
theorem natAbs_trem_lt (a : Int) (hb : b ≠ 0) : (trem a b).natAbs < b.natAbs := by
  rw [trem_eq_tmod, Int.natAbs_tmod]
  exact Nat.mod_lt _ (Int.natAbs_pos.mpr hb)

theorem natAbs_trem_le (a b : Int) : (trem a b).natAbs ≤ a.natAbs := by
  rw [trem_eq_tmod, Int.natAbs_tmod]
  exact Nat.mod_le _ _

theorem trem_eq_zero_iff_dvd : trem a b = 0 ↔ b ∣ a := by
  rw [trem_eq_tmod, Int.dvd_iff_tmod_eq_zero]

/-- A truncating remainder other than 0 has the sign of the dividend (R212). -/
theorem trem_neg_iff (hr : trem a b ≠ 0) : trem a b < 0 ↔ a < 0 := by
  have hsign : (trem a b).sign = a.sign := by
    rw [trem_eq_tmod, Int.sign_tmod, if_neg (mt trem_eq_zero_iff_dvd.mpr hr)]
  rw [← Int.sign_eq_neg_one_iff_neg, hsign, Int.sign_eq_neg_one_iff_neg]

theorem trem_eq_zero_or_neg_iff (a b : Int) : trem a b = 0 ∨ (trem a b < 0 ↔ a < 0) :=
  or_iff_not_imp_left.mpr trem_neg_iff

theorem trem_self (a : Int) : trem a a = 0 := trem_eq_zero_iff_dvd.mpr dvd_rfl

/-! ## Floor division is corrected truncating division (R215) -/

theorem needsFloor_iff : needsFloor a b = true ↔ trem a b ≠ 0 ∧ ¬(trem a b < 0 ↔ b < 0) := by
  simp [needsFloor]

/-- The floor variants differ where the division leaves a remainder and the operands have different signs (R213). -/
theorem needsFloor_iff_signs : needsFloor a b = true ↔ trem a b ≠ 0 ∧ ¬(a < 0 ↔ b < 0) := by
  rw [needsFloor_iff]
  exact and_congr_right fun hr => by rw [trem_neg_iff hr]

theorem fdiv_eq_correctedDiv (hb : b ≠ 0) : fdiv a b = correctedDiv a b := by
  have hquot : fdiv a b = tdiv a b - if b ∣ a then 0 else if 0 ≤ a then if 0 ≤ b then 0 else 1
      else if 0 ≤ b then b.sign else 1 + b.sign := Int.fdiv_eq_tdiv
  simp only [correctedDiv, needsFloor_iff_signs, ne_eq, trem_eq_zero_iff_dvd]
  rw [hquot]
  rcases hb.lt_or_gt with hneg | hpos
  case inl =>
    rw [Int.sign_eq_neg_one_of_neg hneg]
    grind
  case inr =>
    rw [Int.sign_eq_one_of_pos hpos]
    grind

theorem fmod_eq_correctedMod (hb : b ≠ 0) : fmod a b = correctedMod a b := by
  rw [fmod, fdiv_eq_correctedDiv hb, correctedDiv, correctedMod]
  split
  case isTrue =>
    rw [trem]
    ring
  case isFalse => rfl

theorem fdiv_le_tdiv (hb : b ≠ 0) : fdiv a b ≤ tdiv a b := by
  rw [fdiv_eq_correctedDiv hb, correctedDiv]
  split <;> omega

/-- The roundings differ exactly when the division leaves a remainder and the operands have different signs (R213). -/
theorem fdiv_ne_tdiv_iff (hb : b ≠ 0) : fdiv a b ≠ tdiv a b ↔ trem a b ≠ 0 ∧ ¬(a < 0 ↔ b < 0) := by
  rw [fdiv_eq_correctedDiv hb, correctedDiv, ← needsFloor_iff_signs]
  split
  case isTrue h => simp [h]
  case isFalse h => simp [h]

theorem fdiv_eq_tdiv_of_nonneg (ha : 0 ≤ a) (hb : 0 ≤ b) : fdiv a b = tdiv a b := Int.fdiv_eq_tdiv_of_nonneg ha hb

theorem fmod_eq_trem_of_nonneg (ha : 0 ≤ a) (hb : 0 ≤ b) : fmod a b = trem a b := by
  rw [fmod, fdiv_eq_tdiv_of_nonneg ha hb, trem]

/-- Adding the divisor to a remainder of the other sign gives the divisor's sign and keeps the magnitude below its own (R214). -/
theorem fmod_bounds (a : Int) (hb : b ≠ 0) :
    (fmod a b = 0 ∨ (fmod a b < 0 ↔ b < 0)) ∧ (fmod a b).natAbs < b.natAbs := by
  have hlt := natAbs_trem_lt a hb
  rw [fmod_eq_correctedMod hb, correctedMod]
  split
  case isTrue h =>
    obtain ⟨hr, hsigns⟩ := needsFloor_iff.mp h
    omega
  case isFalse h =>
    rw [needsFloor_iff] at h
    omega
end

/-! ## The range of the results -/

theorem val_u_nonneg {n : Nat} (x : BitVec n) : 0 ≤ val .u x := Int.natCast_nonneg _

/-- The division of x by y is defined: both in the range of (s, bits), and neither fault of R210 applies. -/
structure DivisionDefined (sg : Sign) (bits : Nat) (x y : Int) : Prop where
  dividend : minInt sg bits ≤ x ∧ x ≤ maxInt sg bits
  divisor : minInt sg bits ≤ y ∧ y ≤ maxInt sg bits
  nonzero : y ≠ 0
  fits : ¬(sg = .i ∧ x = minInt .i bits ∧ y = -1)

section
variable {sg : Sign} {bits : Nat} {x y v : Int}

/-- Only minInt / -1 leaves a signed range: by any other divisor than 1 and -1 the magnitude is halved. -/
theorem tdiv_mem_range (h : DivisionDefined sg bits x y) :
    minInt sg bits ≤ tdiv x y ∧ tdiv x y ≤ maxInt sg bits := by
  obtain ⟨⟨hxmin, hxmax⟩, ⟨hymin, -⟩, hnonzero, hfits⟩ := h
  cases sg
  case u =>
    obtain ⟨hnonneg, hle⟩ := tdiv_mem_of_nonneg hxmin hymin
    exact ⟨hnonneg, hle.trans hxmax⟩
  case i =>
    have hmirror := maxInt_i_eq bits
    have hneg := minInt_i_le_neg_one bits
    by_cases hone : y = 1
    · rw [hone, tdiv, Int.tdiv_one]
      exact ⟨hxmin, hxmax⟩
    by_cases hnegOne : y = -1
    · have hnotMin : x ≠ minInt .i bits := fun hmin => hfits ⟨rfl, hmin, hnegOne⟩
      rw [hnegOne, tdiv, Int.tdiv_neg, Int.tdiv_one]
      omega
    have htwo : 2 ≤ y.natAbs := by omega
    have hhalf : (tdiv x y).natAbs ≤ x.natAbs / 2 := by
      rw [natAbs_tdiv_eq]
      exact Nat.div_le_div_left htwo two_pos
    omega

/-- The floor quotient is at most the truncating one, and not larger in magnitude than the dividend. -/
theorem fdiv_mem_range (h : DivisionDefined sg bits x y) :
    minInt sg bits ≤ fdiv x y ∧ fdiv x y ≤ maxInt sg bits := by
  refine ⟨?_, (fdiv_le_tdiv h.nonzero).trans (tdiv_mem_range h).2⟩
  cases sg
  case u => exact Int.fdiv_nonneg h.dividend.1 h.divisor.1
  case i =>
    have hle : (fdiv x y).natAbs ≤ x.natAbs := Int.natAbs_fdiv_le_natAbs x y
    have hmirror := maxInt_i_eq bits
    have hdividend := h.dividend
    omega

/-- A value that is 0 or has the sign of one in the range, and is not larger in magnitude, lies in the range. -/
theorem mem_range_of_natAbs_le (hx : minInt sg bits ≤ x ∧ x ≤ maxInt sg bits) (hle : v.natAbs ≤ x.natAbs)
    (hsign : v = 0 ∨ (v < 0 ↔ x < 0)) : minInt sg bits ≤ v ∧ v ≤ maxInt sg bits := by
  have hmin := minInt_nonpos sg bits
  have hmax := maxInt_nonneg sg bits
  omega

/-- The remainder lies between 0 and the dividend. -/
theorem trem_mem_range (h : DivisionDefined sg bits x y) :
    minInt sg bits ≤ trem x y ∧ trem x y ≤ maxInt sg bits :=
  mem_range_of_natAbs_le h.dividend (natAbs_trem_le x y) (trem_eq_zero_or_neg_iff x y)

/-- The modulo lies between 0 and the divisor. -/
theorem fmod_mem_range (h : DivisionDefined sg bits x y) :
    minInt sg bits ≤ fmod x y ∧ fmod x y ≤ maxInt sg bits := by
  obtain ⟨hsign, hlt⟩ := fmod_bounds x h.nonzero
  exact mem_range_of_natAbs_le h.divisor hlt.le hsign
end

/-! ## The rows of the family -/

section
variable {i : Instr} {s : State} {exact : Int → Int → Int} {sg : Sign} {w : Width} {bits : BitVec 8} {a b : BitVec w.bits}

/-- The check before a signed overflow reads the operands as the operation does (R310 row 13). -/
theorem divideOverflowCheck_applies_iff : (divideOverflowCheck sg bits.toNat a b).1 = true ↔
    sg = .i ∧ val sg a = minInt .i bits.toNat ∧ val sg b = -1 := by
  simp only [divideOverflowCheck, Bool.and_eq_true, decide_eq_true_eq]
  exact and_congr_right fun hsg => by rw [hsg]

/-- With legal operands a division faults on a zero divisor first, then on minInt / -1 (R210). -/
theorem firstFault_divisionChecks (hw : LegalWidth w bits) (ha : canonical sg bits.toNat a = true)
    (hb : canonical sg bits.toNat b = true) : firstFault (divisionChecks sg w.bits bits.toNat a b) =
      if val sg b = 0 then some .divideByZero
      else if sg = .i ∧ val sg a = minInt .i bits.toNat ∧ val sg b = -1 then some .divideOverflow else none := by
  rw [divisionChecks, firstFault_append, firstFault_binaryChecks hw ha hb, Option.none_or, zeroDivisorCheck, firstFault_cons,
    firstFault]
  simp only [divideOverflowCheck_applies_iff, decide_eq_true_eq, firstFault_nil]
  rfl

/-- A division that is defined completes with the exact quotient or remainder, which is in range. -/
theorem dividing_completes (he : exec i s = dividing exact sg w.bits bits a b s)
    (hrange : ∀ {x y}, DivisionDefined sg bits.toNat x y →
      minInt sg bits.toNat ≤ exact x y ∧ exact x y ≤ maxInt sg bits.toNat)
    (hs : s.fault = 0x00#8) (hw : LegalWidth w bits) (ha : canonical sg bits.toNat a = true)
    (hb : canonical sg bits.toNat b = true) (hnonzero : val sg b ≠ 0)
    (hfits : ¬(sg = .i ∧ val sg a = minInt .i bits.toNat ∧ val sg b = -1)) :
    ∃ y : BitVec w.bits, exec i s = .next (completed y s) ∧
      y = enc w.bits (exact (val sg a) (val sg b)) ∧
      val sg y = exact (val sg a) (val sg b) ∧ canonical sg bits.toNat y = true := by
  obtain ⟨hmin, hmax⟩ := hrange ⟨canonical_iff.mp ha, canonical_iff.mp hb, hnonzero, hfits⟩
  have hchecks : firstFault (divisionChecks sg w.bits bits.toNat a b) = none := by
    rw [firstFault_divisionChecks hw ha hb, if_neg hnonzero, if_neg hfits]
  exact ⟨_, he.trans (serve_completes hs hchecks _ _), rfl, val_enc_of_mem sg hw.1 hw.2 hmin hmax⟩

/-- The faults of a division, in the order of R210. -/
theorem dividing_row_faults (he : exec i s = dividing exact sg w.bits bits a b s) (hs : s.fault = 0x00#8) :
    FaultsOnWidth i w bits s ∧
      FaultsOnOperands i w bits (canonical sg bits.toNat a && canonical sg bits.toNat b) s ∧
      (LegalWidth w bits → canonical sg bits.toNat a = true → canonical sg bits.toNat b = true →
        (val sg b = 0 → exec i s = .next (faulted .divideByZero s)) ∧
        (sg = .i → val sg a = minInt .i bits.toNat → val sg b = -1 →
          exec i s = .next (faulted .divideOverflow s))) := by
  refine ⟨faultsOnWidth_of_serve he hs, faultsOnOperands_of_serve_two he hs, fun hw ha hb => ⟨?zero, ?overflow⟩⟩
  case zero =>
    intro hzero
    exact he.trans (serve_faults hs (by rw [firstFault_divisionChecks hw ha hb, if_pos hzero]) _ _)
  case overflow =>
    intro hsg hmin hneg
    have hnonzero : val sg b ≠ 0 := by omega
    exact he.trans
      (serve_faults hs (by rw [firstFault_divisionChecks hw ha hb, if_neg hnonzero, if_pos ⟨hsg, hmin, hneg⟩]) _ _)
end

/-! ## The statements -/

/-- Settles O22: the corrected forms are the floor forms, and their condition is the one of the statement. -/
theorem floorIsCorrectedTruncation : Obligations.FloorIsCorrectedTruncation := by
  intro a b hb
  have hdiv := fdiv_eq_correctedDiv (a := a) hb
  have hmod := fmod_eq_correctedMod (a := a) hb
  refine ⟨?_, ?_, hdiv, hmod⟩
  · simp only [hdiv, correctedDiv, needsFloor_iff]
  · simp only [hmod, correctedMod, needsFloor_iff]

/-- Settles O17: the value of the result is the quotient rounded toward zero, which the two faults leave in range. -/
theorem divTruncRoundsTowardZero : Obligations.DivTruncRoundsTowardZero := by
  intro sg w bits a b s hs
  have he := exec_divTruncRow sg w bits a b s
  obtain ⟨hwidth, hoperands, hfaults⟩ := dividing_row_faults he hs
  refine ⟨by rw [encode_cw, fieldsOf_divTruncRow]; rfl, hwidth, hoperands, fun hw ha hb => ?_⟩
  obtain ⟨hzero, hoverflow⟩ := hfaults hw ha hb
  refine ⟨hzero, hoverflow, fun hnonzero hfits => ?_⟩
  obtain ⟨y, hexec, henc, hval, hcanonical⟩ := dividing_completes he tdiv_mem_range hs hw ha hb hnonzero hfits
  have hzeroQuotient : tdiv (val sg a) (val sg b) = 0 → y = 0#w.bits := by
    intro hquot
    rw [henc, hquot, enc_zero]
  refine ⟨y, hexec, henc, hval, hcanonical, ?zeroDividend, ?byOne, ?self, ?smaller⟩
  case zeroDividend =>
    intro hdividend
    exact hzeroQuotient (by rw [hdividend, tdiv, Int.zero_tdiv])
  case byOne =>
    intro hone
    rw [henc, hone, tdiv, Int.tdiv_one, enc_val]
  case self =>
    rintro rfl
    exact hval.trans (Int.tdiv_self hnonzero)
  case smaller => exact fun hlt => hzeroQuotient (tdiv_eq_zero_of_natAbs_lt hlt)

/-- Settles O18: the value of the result is the truncating remainder, which lies between 0 and the dividend. -/
theorem remHasTheSignOfTheDividend : Obligations.RemHasTheSignOfTheDividend := by
  intro sg w bits a b s hs
  have he := exec_remRow sg w bits a b s
  obtain ⟨hwidth, hoperands, hfaults⟩ := dividing_row_faults he hs
  refine ⟨by rw [encode_cw, fieldsOf_remRow]; rfl, hwidth, hoperands, fun hw ha hb => ?_⟩
  obtain ⟨hzero, hoverflow⟩ := hfaults hw ha hb
  refine ⟨hzero, hoverflow, fun hnonzero hfits => ?_⟩
  obtain ⟨y, hexec, henc, hval, -⟩ := dividing_completes he trem_mem_range hs hw ha hb hnonzero hfits
  refine ⟨y, hexec, henc, hval, ?magnitude, ?sign, ?self⟩
  case magnitude =>
    rw [hval]
    exact natAbs_trem_lt _ hnonzero
  case sign =>
    rw [hval]
    exact trem_eq_zero_or_neg_iff _ _
  case self =>
    rintro rfl
    rw [henc, trem_self, enc_zero]

/-- Settles O19: the values of the two quotients differ where the sign correction applies, and a value has one encoding. -/
theorem divFloorRoundsDown : Obligations.DivFloorRoundsDown := by
  intro sg w bits a b s hs
  have he := exec_divFloorRow sg w bits a b s
  obtain ⟨hwidth, hoperands, hfaults⟩ := dividing_row_faults he hs
  refine ⟨by rw [encode_cw, fieldsOf_divFloorRow]; rfl, hwidth, hoperands, fun hw ha hb => ?_⟩
  obtain ⟨hzero, hoverflow⟩ := hfaults hw ha hb
  refine ⟨hzero, hoverflow, fun hnonzero hfits => ?_⟩
  obtain ⟨y, hexec, henc, hval, -⟩ := dividing_completes he fdiv_mem_range hs hw ha hb hnonzero hfits
  obtain ⟨q, hexecQ, hencQ, hvalQ, -⟩ :=
    dividing_completes (exec_divTruncRow sg w bits a b s) tdiv_mem_range hs hw ha hb hnonzero hfits
  refine ⟨y, q, hexec, hexecQ, henc, hval, ?unsigned, ?differ⟩
  case unsigned =>
    rintro rfl
    rw [henc, hencQ, fdiv_eq_tdiv_of_nonneg (val_u_nonneg a) (val_u_nonneg b)]
  case differ =>
    have hvalues : y = q ↔ fdiv (val sg a) (val sg b) = tdiv (val sg a) (val sg b) := by
      rw [← hval, ← hvalQ]
      exact ⟨congrArg (val sg), val_injective sg⟩
    rw [← trem_eq_tmod, ← fdiv_ne_tdiv_iff hnonzero]
    exact not_congr hvalues

/-- Settles O20: the value of the result is the floored modulo, which the sign correction places between 0 and the divisor. -/
theorem modHasTheSignOfTheDivisor : Obligations.ModHasTheSignOfTheDivisor := by
  intro sg w bits a b s hs
  have he := exec_modRow sg w bits a b s
  obtain ⟨hwidth, hoperands, hfaults⟩ := dividing_row_faults he hs
  refine ⟨by rw [encode_cw, fieldsOf_modRow]; rfl, hwidth, hoperands, fun hw ha hb => ?_⟩
  obtain ⟨hzero, hoverflow⟩ := hfaults hw ha hb
  refine ⟨hzero, hoverflow, fun hnonzero hfits => ?_⟩
  obtain ⟨y, hexec, henc, hval, -⟩ := dividing_completes he fmod_mem_range hs hw ha hb hnonzero hfits
  obtain ⟨r, hexecR, hencR, -, -⟩ :=
    dividing_completes (exec_remRow sg w bits a b s) trem_mem_range hs hw ha hb hnonzero hfits
  have hunsigned : sg = .u → y = r := by
    rintro rfl
    rw [henc, hencR, fmod_eq_trem_of_nonneg (val_u_nonneg a) (val_u_nonneg b)]
  have hbounds := fmod_bounds (val sg a) hnonzero
  rw [← hval] at hbounds
  exact ⟨y, r, hexec, hexecR, henc, hval, hunsigned, hbounds⟩

/-- Settles O21: in both roundings the remainder is what the product of quotient and divisor leaves of the dividend. -/
theorem quotientAndRemainderRecompose : Obligations.QuotientAndRemainderRecompose := by
  intro sg w bits a b s hs hw ha hb hnonzero hfits
  obtain ⟨q, hexecQ, -, hq, -⟩ :=
    dividing_completes (exec_divTruncRow sg w bits a b s) tdiv_mem_range hs hw ha hb hnonzero hfits
  obtain ⟨r, hexecR, -, hr, -⟩ :=
    dividing_completes (exec_remRow sg w bits a b s) trem_mem_range hs hw ha hb hnonzero hfits
  obtain ⟨qf, hexecQf, -, hqf, -⟩ :=
    dividing_completes (exec_divFloorRow sg w bits a b s) fdiv_mem_range hs hw ha hb hnonzero hfits
  obtain ⟨rf, hexecRf, -, hrf, -⟩ :=
    dividing_completes (exec_modRow sg w bits a b s) fmod_mem_range hs hw ha hb hnonzero hfits
  obtain ⟨hsign, hlt⟩ := fmod_bounds (val sg a) hnonzero
  refine ⟨q, r, qf, rf, hexecQ, hexecR, hexecQf, hexecRf, ?truncating, ?floor, ?magnitudeR, ?magnitudeRf, ?signR, ?signRf⟩
  case truncating =>
    rw [hr, trem, hq]
    ring
  case floor =>
    rw [hrf, fmod, hqf]
    ring
  case magnitudeR =>
    rw [hr]
    exact abs_lt_abs_of_natAbs_lt (natAbs_trem_lt _ hnonzero)
  case magnitudeRf =>
    rw [hrf]
    exact abs_lt_abs_of_natAbs_lt hlt
  case signR =>
    rw [hr]
    exact trem_eq_zero_or_neg_iff _ _
  case signRf => rwa [hrf]

end Sys2Proof.Machine
end

section
/-!
PROOFS. The 128-bit operations and their composition from 64-bit halves (45_int128.md R240 to R248). First a container and its
halves, then what MAKE, HI, LO and CMP answer, then the compositions, then the statements.
-/

namespace Sys2Proof.Machine

/-! ## A container and its halves -/

section
variable (a : BitVec 128) (x y : BitVec 64)

@[simp] theorem hi64_append : hi64 (x ++ y) = x := BitVec.extractLsb'_append_eq_left

@[simp] theorem lo64_append : lo64 (x ++ y) = y := BitVec.extractLsb'_append_eq_right

@[simp] theorem hi64_append_lo64 : hi64 a ++ lo64 a = a := BitVec.extractLsb'_append_extractLsb'

theorem getLsbD_hi64 (k : Nat) : (hi64 a).getLsbD k = (decide (k < 64) && a.getLsbD (64 + k)) := by
  simp [hi64]

theorem getLsbD_lo64 (k : Nat) : (lo64 a).getLsbD k = (decide (k < 64) && a.getLsbD k) := by
  simp [lo64]

/-- The sign of a container is the sign of its upper half. -/
theorem msb_hi64 : (hi64 a).msb = a.msb := by
  rw [BitVec.msb_eq_getLsbD_last, BitVec.msb_eq_getLsbD_last, getLsbD_hi64]
  rfl

/-- The upper half carries the signedness and the lower half counts as unsigned (R241). -/
theorem val_append (sg : Sign) : val sg (x ++ y) = val sg x * 2 ^ 64 + val .u y := by
  cases sg
  case u =>
    have hlt := y.isLt
    have hnat : (x ++ y).toNat = x.toNat * 2 ^ 64 + y.toNat := by
      rw [BitVec.toNat_append, ← Nat.shiftLeft_add_eq_or_of_lt hlt, Nat.shiftLeft_eq]
    simp only [val_u, hnat]
    push_cast
    rfl
  case i =>
    rw [val_i, BitVec.toInt_append, if_neg (by decide), mul_comm]
    rfl

/-- The value of a container from its halves. -/
theorem val_eq_halves (sg : Sign) : val sg a = val sg (hi64 a) * 2 ^ 64 + val .u (lo64 a) := by
  rw [← val_append, hi64_append_lo64]

theorem val_u_lt (x : BitVec 64) : val .u x < 2 ^ 64 := by
  have hlt := x.isLt
  rw [val_u]
  omega
end

/-! ## MAKE, HI, LO and CMP -/

section
variable {s : State}

theorem exec_makeRow_of_unfaulted (hs : s.fault = 0x00#8) (sg : Sign) (a b : BitVec 64) :
    exec (makeRow sg a b) s = .next (completed (a ++ b) s) := by
  rw [exec_makeRow]
  exact serve_completes hs firstFault_nil _ _

theorem exec_hiRow_of_unfaulted (hs : s.fault = 0x00#8) (sg : Sign) (a : BitVec 128) :
    exec (hiRow sg a) s = .next (completed (hi64 a) s) := by
  rw [exec_hiRow]
  exact serve_completes hs firstFault_nil _ _

theorem exec_loRow_of_unfaulted (hs : s.fault = 0x00#8) (sg : Sign) (a : BitVec 128) :
    exec (loRow sg a) s = .next (completed (lo64 a) s) := by
  rw [exec_loRow]
  exact serve_completes hs firstFault_nil _ _

theorem exec_cmpRow_of_unfaulted (hs : s.fault = 0x00#8) (sg : Sign) (a b : BitVec 128) :
    exec (cmpRow sg a b) s = .next (completed (enc 8 (threeWay (val sg a) (val sg b))) s) := by
  rw [exec_cmpRow]
  exact serve_completes hs firstFault_nil _ _
end

/-- The four operations that exist at 128 bits only are illegal with another W or with BITS (R89). -/
theorem decode_error_of_only128 {r : Request} (hop : opNumber r.cw ∈ only128Ops)
    (hne : widthNumber r.cw ≠ 4 ∨ bitsNumber r.cw ≠ 0) : decode r = .error .illegalEncoding := by
  have hillegal : IllegalWord r.cw := by
    rcases hne with hw | hbits
    · exact .inr (.inr (.inr (.inl ⟨hop, hw⟩)))
    · exact .inr (.inr (.inr (.inr ⟨hop, hbits⟩)))
  rcases legalWord_or_decode_error r.cw r.a r.b with hlegal | ⟨-, hd⟩ | ⟨hreserved, -⟩
  · exact absurd hillegal (not_illegalWord_of_legal hlegal)
  · exact hd
  · exact absurd hillegal (not_illegalWord_of_reserved hreserved)

section
variable {v v' : Int}

theorem threeWay_of_lt (h : v < v') : threeWay v v' = -1 := if_pos h

theorem threeWay_self (v : Int) : threeWay v v = 0 := by simp [threeWay]

theorem threeWay_of_gt (h : v' < v) : threeWay v v' = 1 := by
  rw [threeWay, if_neg h.not_gt, if_neg h.ne']

/-- Comparing the upper digits first and then the lower ones compares the numbers (R244). -/
theorem threeWay_digits {d d' : Int} (hd : 0 ≤ d ∧ d < 2 ^ 64) (hd' : 0 ≤ d' ∧ d' < 2 ^ 64) :
    threeWay (v * 2 ^ 64 + d) (v' * 2 ^ 64 + d') = if v = v' then threeWay d d' else threeWay v v' := by
  rcases lt_trichotomy v v' with hlt | rfl | hgt
  · rw [if_neg hlt.ne, threeWay_of_lt hlt, threeWay_of_lt (by omega)]
  · simp [threeWay]
  · rw [if_neg hgt.ne', threeWay_of_gt hgt, threeWay_of_gt (by omega)]
end

theorem emuCmp_eq_threeWay (sg : Sign) (a b : BitVec 128) : emuCmp sg a b = threeWay (val sg a) (val sg b) := by
  rw [val_eq_halves a, val_eq_halves b,
    threeWay_digits ⟨val_u_nonneg _, val_u_lt _⟩ ⟨val_u_nonneg _, val_u_lt _⟩, emuCmp]

/-! ## Bitwise operations and product (R245, R248) -/

section
variable (a b : BitVec 128)

theorem emuBitwise_and : emuBitwise (· &&& ·) a b = a &&& b := by
  rw [emuBitwise, ← BitVec.and_append, hi64_append_lo64, hi64_append_lo64]

theorem emuBitwise_or : emuBitwise (· ||| ·) a b = a ||| b := by
  rw [emuBitwise, ← BitVec.or_append, hi64_append_lo64, hi64_append_lo64]

theorem emuBitwise_xor : emuBitwise (· ^^^ ·) a b = a ^^^ b := by
  rw [emuBitwise, ← BitVec.xor_append, hi64_append_lo64, hi64_append_lo64]

theorem emuComplement_eq_not : emuComplement a = ~~~a := by
  rw [emuComplement, ← BitVec.not_append, hi64_append_lo64]

theorem enc_add (n : Nat) (v v' : Int) : enc n (v + v') = enc n v + enc n v' := BitVec.ofInt_add v v'

/-- A zero extension shifted up encodes the unsigned value times the power of two. -/
theorem setWidth_shiftLeft_eq_enc {m n : Nat} (x : BitVec m) (k : Nat) (h : m ≤ n) :
    x.setWidth n <<< k = enc n (val .u x * 2 ^ k) := by
  rw [shiftLeft_eq_enc .u, ← val_extend .u x h]
  rfl

theorem wideMul_eq_enc (x y : BitVec 64) : wideMul x y = enc 128 (val .u x * val .u y) := by
  rw [wideMul, enc, val_u, val_u, ← Nat.cast_mul, BitVec.ofInt_natCast]

/-- The cross products matter modulo 2^64 only, and the product of the upper halves not at all: both are multiplied by a power
of two that takes the rest beyond 128 bits. -/
theorem emuMul_eq_mul : emuMul a b = a * b := by
  have hcross : hi64 a * lo64 b + lo64 a * hi64 b =
      enc 64 (val .u (hi64 a) * val .u (lo64 b) + val .u (lo64 a) * val .u (hi64 b)) := by
    rw [enc_add, enc_mul, enc_mul, enc_val, enc_val, enc_val, enc_val]
  have hmul : a * b = enc 128 (val .u a * val .u b) := by rw [enc_mul, enc_val, enc_val]
  rw [hmul, emuMul, wideMul_eq_enc, setWidth_shiftLeft_eq_enc _ _ (by decide), hcross, val_enc_eq_wrapv, ← enc_add,
    val_eq_halves a, val_eq_halves b]
  obtain ⟨q, hq⟩ := two_pow_dvd_wrapv_sub .u 64
    (val .u (hi64 a) * val .u (lo64 b) + val .u (lo64 a) * val .u (hi64 b))
  apply enc_eq_of_dvd
  exact ⟨q - val .u (hi64 a) * val .u (hi64 b), by linear_combination 2 ^ 64 * hq⟩

/-- The product of containers encodes the exact product, whichever way they are read (R248). -/
theorem emuMul_eq_enc (sg : Sign) : emuMul a b = enc 128 (val sg a * val sg b) := by
  rw [emuMul_eq_mul, enc_mul, enc_val, enc_val]
end

/-! ## Shifts (R247)

The halves of a shifted container, by where the amount moves them; the composed shifts join them. -/

section
variable (a : BitVec 128) {n : Nat}

theorem hi64_shiftLeft_of_lt (h : n < 64) : hi64 (a <<< n) = hi64 a <<< n ||| lo64 a >>> (64 - n) := by
  apply BitVec.eq_of_getLsbD_eq
  intro k hk
  simp only [BitVec.getLsbD_or, BitVec.getLsbD_shiftLeft, BitVec.getLsbD_ushiftRight, getLsbD_hi64, getLsbD_lo64]
  rcases lt_or_ge k n with hlow | hhigh
  case inl =>
    have hindex : 64 - n + k = 64 + k - n := by omega
    grind
  case inr =>
    have hindex : 64 + (k - n) = 64 + k - n := by omega
    grind

theorem lo64_shiftLeft (n : Nat) : lo64 (a <<< n) = lo64 a <<< n := by
  apply BitVec.eq_of_getLsbD_eq
  intro k hk
  simp only [BitVec.getLsbD_shiftLeft, getLsbD_lo64]
  grind

theorem hi64_shiftLeft_of_ge (h : 64 ≤ n) : hi64 (a <<< n) = lo64 a <<< (n - 64) := by
  apply BitVec.eq_of_getLsbD_eq
  intro k hk
  have hindex : 64 + k - n = k - (n - 64) := by omega
  simp only [BitVec.getLsbD_shiftLeft, getLsbD_hi64, getLsbD_lo64, hindex]
  grind

theorem emuShl_eq_shiftLeft (n : Nat) : emuShl a n = a <<< n := by
  rw [emuShl]
  split
  case isTrue hzero => rw [hzero, BitVec.shiftLeft_zero]
  case isFalse =>
    rw [← hi64_append_lo64 (a <<< n), lo64_shiftLeft]
    split
    case isTrue hlt => rw [hi64_shiftLeft_of_lt a hlt]
    case isFalse hge =>
      have hlow : lo64 a <<< n = 0#64 := BitVec.shiftLeft_eq_zero (not_lt.mp hge)
      rw [hi64_shiftLeft_of_ge a (not_lt.mp hge), hlow]
end

/-- The right shift of a signedness: logical for s = u, arithmetic for s = i (R127). -/
def shiftRightValue (sg : Sign) {n : Nat} (x : BitVec n) (k : Nat) : BitVec n :=
  match sg with
  | .u => x >>> k
  | .i => x.sshiftRight k

/-- The right shift of a signedness encodes the floored quotient, which is what SHR answers. -/
theorem shiftRightValue_eq_enc (sg : Sign) {n : Nat} (x : BitVec n) (k : Nat) :
    shiftRightValue sg x k = enc n (Int.fdiv (val sg x) (2 ^ k)) := by
  cases sg
  case u =>
    apply BitVec.eq_of_toNat_eq
    have hquot : Int.fdiv (val .u x) (2 ^ k) = ((x.toNat / 2 ^ k : Nat) : Int) := by
      rw [fdiv_two_pow, val_u]
      push_cast
      rfl
    rw [hquot, enc, BitVec.ofInt_natCast, BitVec.toNat_ofNat, shiftRightValue, BitVec.toNat_ushiftRight,
      Nat.shiftRight_eq_div_pow, Nat.mod_eq_of_lt ((Nat.div_le_self _ _).trans_lt x.isLt)]
  case i => exact sshiftRight_eq_enc x k

/-- Each bit of a right shift: the bit `k` places above it, or the fill. -/
theorem getLsbD_shiftRightValue (sg : Sign) {n : Nat} (x : BitVec n) {k j : Nat} (hj : j < n) :
    (shiftRightValue sg x k).getLsbD j =
      if k + j < n then x.getLsbD (k + j) else decide (sg = .i) && x.msb := by
  cases sg
  case u =>
    rw [shiftRightValue, BitVec.getLsbD_ushiftRight]
    split
    case isTrue => rfl
    case isFalse h => simp [BitVec.getLsbD_of_ge x (k + j) (by omega)]
  case i =>
    rw [shiftRightValue, BitVec.getLsbD_sshiftRight]
    simp [hj]

section
variable (sg : Sign) (a : BitVec 128) {n : Nat}

theorem hi64_shiftRightValue (n : Nat) : hi64 (shiftRightValue sg a n) = shiftRightValue sg (hi64 a) n := by
  apply BitVec.eq_of_getLsbD_eq
  intro k hk
  have hindex : n + (64 + k) = 64 + (n + k) := by omega
  rw [getLsbD_hi64, getLsbD_shiftRightValue sg a (by omega), getLsbD_shiftRightValue sg _ hk, getLsbD_hi64, msb_hi64, hindex]
  grind

theorem lo64_shiftRightValue_of_lt (h : n < 64) :
    lo64 (shiftRightValue sg a n) = lo64 a >>> n ||| hi64 a <<< (64 - n) := by
  apply BitVec.eq_of_getLsbD_eq
  intro k hk
  rw [getLsbD_lo64, getLsbD_shiftRightValue sg a (by omega), if_pos (by omega)]
  simp only [BitVec.getLsbD_or, BitVec.getLsbD_shiftLeft, BitVec.getLsbD_ushiftRight, getLsbD_hi64, getLsbD_lo64]
  rcases lt_or_ge (n + k) 64 with hlow | hhigh
  case inl => grind
  case inr =>
    have hindex : 64 + (k - (64 - n)) = n + k := by omega
    grind

theorem lo64_shiftRightValue_of_ge (h : 64 ≤ n) :
    lo64 (shiftRightValue sg a n) = shiftRightValue sg (hi64 a) (n - 64) := by
  apply BitVec.eq_of_getLsbD_eq
  intro k hk
  have hindex : 64 + (n - 64 + k) = n + k := by omega
  rw [getLsbD_lo64, getLsbD_shiftRightValue sg a (by omega), getLsbD_shiftRightValue sg _ hk, getLsbD_hi64, msb_hi64, hindex]
  grind

theorem emuShr_of_lt (hpos : n ≠ 0) (h : n < 64) :
    emuShr sg a n = shiftRightValue sg (hi64 a) n ++ (lo64 a >>> n ||| hi64 a <<< (64 - n)) := by
  cases sg <;> simp only [emuShr, shiftRightValue, if_neg hpos, if_pos h]

/-- The fill of the table is the upper half with all its bits shifted out. -/
theorem emuShr_of_ge (h : 64 ≤ n) :
    emuShr sg a n = shiftRightValue sg (hi64 a) n ++ shiftRightValue sg (hi64 a) (n - 64) := by
  have hpos : n ≠ 0 := by omega
  cases sg
  case u =>
    have hfill : hi64 a >>> n = 0#64 := BitVec.ushiftRight_eq_zero h
    simp only [emuShr, shiftRightValue, if_neg hpos, if_neg (not_lt.mpr h), hfill]
  case i =>
    have hfill : (hi64 a).sshiftRight n = if (hi64 a).getLsbD 63 then BitVec.allOnes 64 else 0#64 := by
      rw [show (hi64 a).getLsbD 63 = (hi64 a).msb from (BitVec.msb_eq_getLsbD_last _).symm]
      cases hmsb : (hi64 a).msb
      case false => exact (BitVec.sshiftRight_eq_of_msb_false hmsb).trans (BitVec.ushiftRight_eq_zero h)
      case true => rw [BitVec.sshiftRight_eq_of_msb_true hmsb, BitVec.ushiftRight_eq_zero h, if_pos rfl, BitVec.not_zero]
    simp only [emuShr, shiftRightValue, if_neg hpos, if_neg (not_lt.mpr h), hfill]

theorem emuShr_eq_shiftRightValue (n : Nat) : emuShr sg a n = shiftRightValue sg a n := by
  by_cases hzero : n = 0
  · rw [hzero, shiftRightValue_eq_enc, pow_zero, Int.fdiv_one, enc_val]
    rfl
  rw [← hi64_append_lo64 (shiftRightValue sg a n), hi64_shiftRightValue]
  rcases lt_or_ge n 64 with hlt | hge
  · rw [emuShr_of_lt sg a hzero hlt, lo64_shiftRightValue_of_lt sg a hlt]
  · rw [emuShr_of_ge sg a hge, lo64_shiftRightValue_of_ge sg a hge]
end

/-! ## CFG (R240) -/

/-- An answer with another CFG in the next state, if there is one. -/
def answerWithCfg (c : Cfg) : Result → Result
  | .next t => .next { t with cfg := c }
  | .fault f => .fault f
  | .refused r => .refused r

section
variable (c : Cfg) (s : State)

theorem serve_withCfg (checks : List (Bool × FaultCode)) (l : Latch) (o : Option Bool) :
    serve checks l o { s with cfg := c } = answerWithCfg c (serve checks l o s) := by
  by_cases hs : s.fault = 0x00#8
  · rw [serve_of_unfaulted hs, serve_of_unfaulted (s := { s with cfg := c }) hs]
    cases firstFault checks <;> rfl
  · rw [serve_of_faulted hs, serve_of_faulted (s := { s with cfg := c }) hs]
    rfl

theorem rejectRequest_withCfg (f : FaultCode) :
    rejectRequest f { s with cfg := c } = answerWithCfg c (rejectRequest f s) := by
  by_cases hs : s.fault = 0x00#8
  · rw [rejectRequest_of_unfaulted hs, rejectRequest_of_unfaulted (s := { s with cfg := c }) hs]
    rfl
  · rw [rejectRequest_of_faulted hs, rejectRequest_of_faulted (s := { s with cfg := c }) hs]
    rfl

theorem exec_withCfg (i : Instr) : exec i { s with cfg := c } = answerWithCfg c (exec i s) := by
  obtain ⟨checks, l, o, hserve⟩ := exec_serves_alike i
  rw [hserve, hserve, serve_withCfg]
end

theorem step_request_ok {s : State} {r : Request} {rest : List HostAction} {i : Instr} (h : s.host = .request r :: rest)
    (hd : decode r = .ok i) : step s = exec i { s with host := rest } := by
  simp [step, nextAction, h, hd]

/-- The step of a request carries CFG along and does not look at it (R240). -/
theorem step_request_withCfg {s : State} {r : Request} {rest : List HostAction} (h : s.host = .request r :: rest) (c : Cfg) :
    step { s with cfg := c } = answerWithCfg c (step s) := by
  cases hd : decode r with
  | error f =>
    rw [step_request_error h hd, step_request_error (s := { s with cfg := c }) h hd]
    exact rejectRequest_withCfg c { s with host := rest } f
  | ok i =>
    rw [step_request_ok h hd, step_request_ok (s := { s with cfg := c }) h hd]
    exact exec_withCfg c { s with host := rest } i

/-! ## The statements -/

/-- Settles O58: the answer with the other CFG is the answer itself, with that CFG in its next state. -/
theorem resultsIgnoreConfiguration : Obligations.ResultsIgnoreConfiguration := by
  intro s t r rest c hhost
  rw [step_request_withCfg hhost c]
  exact ⟨fun h => by rw [h]; rfl, fun f h => by rw [h]; rfl⟩

/-- Settles O34: each composed shift is the shift of the container, whose value O6 and O7 give. -/
theorem composedShiftsAgree : Obligations.ComposedShiftsAgree := by
  intro sg bits a n s hs hw ha hn
  have hamt : n.toNat < Width.w128.bits := Nat.lt_succ_of_le hn
  obtain ⟨-, -, -, -, hshl⟩ := shlReducesTheShiftedValue sg .w128 bits a n s hs
  obtain ⟨-, -, -, -, hshr⟩ := shrFloorsTheQuotient sg .w128 bits a n s hs
  constructor
  · obtain ⟨y, hexec, -, hwrap, -⟩ := hshl hw ha hamt
    rw [emuShl_eq_shiftLeft]
    exact hexec.trans (hwrap.symm.trans (exec_wrapRow_of_legal hs hw _))
  · obtain ⟨y, hexec, rfl, -⟩ := hshr hw ha hamt
    rw [emuShr_eq_shiftRightValue, shiftRightValue_eq_enc]
    exact hexec

/-- Settles O35: each composition is the operation of the container, which the row answers or wraps. -/
theorem composedBitwiseAndProductAgree : Obligations.ComposedBitwiseAndProductAgree := by
  intro sg bits a b s hs hw ha hb
  obtain ⟨-, -, -, hand⟩ := andIsBitwiseConjunction sg .w128 bits a b s hs
  obtain ⟨-, -, -, hor⟩ := orIsBitwiseDisjunction sg .w128 bits a b s hs
  obtain ⟨-, -, -, hxor⟩ := xorIsBitwiseExclusiveOr sg .w128 bits a b s hs
  obtain ⟨-, -, -, hnot⟩ := notComplementsWithinWidth sg .w128 bits a s hs
  obtain ⟨-, -, -, hmul⟩ := mulwWrapsTheProduct sg .w128 bits a b s hs
  refine ⟨?and, ?or, ?xor, ?not, emuMul_eq_enc a b sg, ?mulw⟩
  case and =>
    rw [emuBitwise_and]
    exact (hand hw ha hb).1
  case or =>
    rw [emuBitwise_or]
    exact (hor hw ha hb).1
  case xor =>
    rw [emuBitwise_xor]
    exact (hxor hw ha hb).1
  case not =>
    obtain ⟨y, hexec, hwrap, -⟩ := hnot hw ha
    rw [emuComplement_eq_not]
    exact hexec.trans (hwrap.symm.trans (exec_wrapRow_of_legal hs hw _))
  case mulw =>
    obtain ⟨y, hexec, rfl, -⟩ := hmul hw ha hb
    have hwrap := wrapValue_enc sg (n := 128) (val sg a * val sg b) hw.2
    rw [emuMul_eq_enc a b sg, hwrap]
    exact hexec

/-- Settles O32: CMP answers the three-way comparison of the values, and the comparison of the halves is the same. -/
theorem cmpComparesThreeWay : Obligations.CmpComparesThreeWay := by
  intro sg a b s hs
  rw [exec_cmpRow_of_unfaulted hs, emuCmp_eq_threeWay]
  refine ⟨by rw [encode_cw, fieldsOf_cmpRow]; rfl, ?below, ?equal, ?above, rfl, ?same, fun r hop => ?illegal⟩
  case below =>
    intro hlt
    rw [threeWay_of_lt hlt]
    rfl
  case equal =>
    intro heq
    rw [heq, threeWay_self]
    rfl
  case above =>
    intro hgt
    rw [threeWay_of_gt hgt]
    rfl
  case same =>
    rintro rfl
    rw [threeWay_self]
    rfl
  case illegal => exact decode_error_of_only128 (by rw [hop]; decide)

/-- Settles O30: the joined container has the two halves, and at a LogicalWidth it does not fit it faults until WRAP is
applied. -/
theorem makeJoinsTheHalves : Obligations.MakeJoinsTheHalves := by
  intro sg a b s hs
  refine ⟨by rw [encode_cw, fieldsOf_makeRow]; rfl, a ++ b, exec_makeRow_of_unfaulted hs sg a b, rfl, val_append a b sg,
    ?hi, ?lo, ?narrow, fun r hop => ?illegal⟩
  case hi => rw [exec_hiRow_of_unfaulted hs, hi64_append]
  case lo => rw [exec_loRow_of_unfaulted hs, lo64_append]
  case narrow =>
    intro bits hw hnoncanonical
    exact ⟨faultsOnOperands_of_serve (exec_notRow sg .w128 bits (a ++ b) s) hs hw hnoncanonical, _,
      exec_wrapRow_of_legal hs hw _, canonical_wrapValue sg _ hw.1 hw.2⟩
  case illegal => exact decode_error_of_only128 (by rw [hop]; decide)

/-- Settles O31: the halves are the bits they name, and a container is its halves joined. -/
theorem hiAndLoGiveTheHalves : Obligations.HiAndLoGiveTheHalves := by
  intro sg a s hs
  refine ⟨by rw [encode_cw, fieldsOf_hiRow]; rfl, by rw [encode_cw, fieldsOf_loRow]; rfl, hi64 a, lo64 a,
    exec_hiRow_of_unfaulted hs sg a, exec_loRow_of_unfaulted hs sg a, ?hi, ?lo, ?joined, fun r hop => ?illegal⟩
  case hi =>
    intro k hk
    rw [getLsbD_hi64, decide_eq_true hk, Bool.true_and]
  case lo =>
    intro k hk
    rw [getLsbD_lo64, decide_eq_true hk, Bool.true_and]
  case joined => rw [exec_makeRow_of_unfaulted hs, hi64_append_lo64]
  case illegal => exact decode_error_of_only128 (by rcases hop with h | h <;> rw [h] <;> decide)

end Sys2Proof.Machine
end

section
/-!
PROOFS. CLZ, CTZ, POPCOUNT, BYTESWAP and BITREVERSE (46_bitmanip.md R270 to R278). First what the low bits of a canonical operand
say of it, then what each operation does to a pattern of `bits` bits, to its zero extension and to its halves, then what a row
of the family answers, then the statements.
-/

namespace Sys2Proof.Machine

/-! ## The low bits of a canonical operand (R271) -/

section
variable {sg : Sign} {bits n : Nat} {a : BitVec n}

theorem extend_lowBits_of_canonical (h1 : 1 ≤ bits) (hb : bits ≤ n) (ha : canonical sg bits a = true) :
    extend sg n (lowBits bits a) = a :=
  wrapValue_of_canonical h1 hb ha

/-- The pattern of a canonical operand has the operand's value. -/
theorem val_lowBits_of_canonical (h1 : 1 ≤ bits) (hb : bits ≤ n) (ha : canonical sg bits a = true) :
    val sg (lowBits bits a) = val sg a := by
  rw [← val_extend sg (lowBits bits a) hb, extend_lowBits_of_canonical h1 hb ha]

theorem lowBits_zero (bits n : Nat) : lowBits bits 0#n = 0#bits := by
  apply BitVec.eq_of_getLsbD_eq
  intro k hk
  simp

theorem getLsbD_extend_of_lt (sg : Sign) (y : BitVec bits) {k : Nat} (hb : bits ≤ n) (hk : k < bits) :
    (extend sg n y).getLsbD k = y.getLsbD k := by
  rw [getLsbD_extend sg n y k (by omega), if_pos hk]

theorem lowBits_extend (sg : Sign) (y : BitVec bits) (hb : bits ≤ n) : lowBits bits (extend sg n y) = y := by
  apply BitVec.eq_of_getLsbD_eq
  intro k hk
  rw [getLsbD_lowBits, getLsbD_extend_of_lt sg y hb hk, decide_eq_true hk, Bool.true_and]

theorem canonical_extend (sg : Sign) (y : BitVec bits) (h1 : 1 ≤ bits) (hb : bits ≤ n) :
    canonical sg bits (extend sg n y) = true := by
  rw [canonical_iff_extend_lowBits sg _ h1 hb, lowBits_extend sg y hb]

/-- A negative vector has its top bit set. -/
theorem getLsbD_top_of_neg {u : BitVec n} (h : u.toInt < 0) : u.getLsbD (n - 1) = true := by
  rw [← BitVec.msb_eq_getLsbD_last, BitVec.msb_eq_toInt, decide_eq_true h]

theorem eq_intMin_of_toInt {u : BitVec n} (h1 : 1 ≤ n) (h : u.toInt = minInt .i n) : u = BitVec.intMin n := by
  apply BitVec.eq_of_toInt_eq
  rw [h, BitVec.toInt_intMin_of_pos h1, minInt]
  push_cast
  rfl

theorem eq_allOnes_of_toInt {u : BitVec n} (h1 : 1 ≤ n) (h : u.toInt = -1) : u = BitVec.allOnes n := by
  apply BitVec.eq_of_toInt_eq
  rw [h, BitVec.toInt_allOnes, if_pos (Nat.lt_of_succ_le h1)]
end

/-! ## The halves of a vector (R278) -/

section
variable {n : Nat} (x : BitVec n)

theorem getLsbD_upperHalf {k : Nat} (hk : k < n / 2) : (upperHalf x).getLsbD k = x.getLsbD (n / 2 + k) := by
  rw [upperHalf, BitVec.getLsbD_extractLsb', decide_eq_true hk, Bool.true_and]

theorem getLsbD_lowerHalf {k : Nat} (hk : k < n / 2) : (lowerHalf x).getLsbD k = x.getLsbD k := by
  rw [lowerHalf, BitVec.getLsbD_extractLsb', decide_eq_true hk, Bool.true_and, Nat.zero_add]

/-- Each bit of a vector of even width lies in one of its halves. -/
theorem getLsbD_of_halves (hn : n / 2 + n / 2 = n) (k : Nat) :
    x.getLsbD k = if k < n / 2 then (lowerHalf x).getLsbD k else (upperHalf x).getLsbD (k - n / 2) := by
  split
  case isTrue hk => rw [getLsbD_lowerHalf x hk]
  case isFalse hk =>
    rcases lt_or_ge k n with hlt | hge
    · rw [getLsbD_upperHalf x (by omega), Nat.add_sub_cancel' (Nat.le_of_not_lt hk)]
    · rw [BitVec.getLsbD_of_ge x k hge, BitVec.getLsbD_of_ge _ _ (by omega)]

theorem eq_zero_of_halves (hn : n / 2 + n / 2 = n) (hhi : upperHalf x = 0#(n / 2)) (hlo : lowerHalf x = 0#(n / 2)) :
    x = 0#n := by
  apply BitVec.eq_of_getLsbD_eq
  intro k _
  rw [getLsbD_of_halves x hn, hhi, hlo]
  simp

/-- Two halves joined give a vector bit by bit. -/
theorem eq_append_setWidth {hi lo : BitVec (n / 2)} {z : BitVec n} (hn : n / 2 + n / 2 = n)
    (hlo : ∀ k, k < n / 2 → z.getLsbD k = lo.getLsbD k) (hhi : ∀ k, k < n / 2 → z.getLsbD (n / 2 + k) = hi.getLsbD k) :
    z = (hi ++ lo).setWidth n := by
  apply BitVec.eq_of_getLsbD_eq
  intro k hk
  rw [BitVec.getLsbD_setWidth, BitVec.getLsbD_append, decide_eq_true hk, Bool.true_and]
  split
  case isTrue hlow => exact hlo k hlow
  case isFalse hhigh =>
    rw [← hhi (k - n / 2) (by omega), Nat.add_sub_cancel' (Nat.le_of_not_lt hhigh)]
end

/-- A width that halves `k + 1` times down to 8 bits is twice one that halves `k` times. -/
theorem half_of_levels {n k : Nat} (hn : n = 8 * 2 ^ (k + 1)) : n / 2 = 8 * 2 ^ k ∧ n / 2 + n / 2 = n := by
  rw [pow_succ] at hn
  omega

theorem bits_eq_levels (w : Width) : w.bits = 8 * 2 ^ levelsOf w := by
  cases w <;> rfl

/-! ## The highest and the lowest 1 bit (R272, R273) -/

/-- Bit `k` of `u` is 1 and no bit above it is. -/
def HighestOneAt {n : Nat} (u : BitVec n) (k : Nat) : Prop := u.getLsbD k = true ∧ ∀ j, k < j → u.getLsbD j = false

/-- Bit `k` of `u` is 1 and no bit below it is. -/
def LowestOneAt {n : Nat} (u : BitVec n) (k : Nat) : Prop := u.getLsbD k = true ∧ ∀ j, j < k → u.getLsbD j = false

section
variable {n k : Nat} {u : BitVec n}

theorem HighestOneAt.lt (h : HighestOneAt u k) : k < n := BitVec.lt_of_getLsbD h.1

theorem LowestOneAt.lt (h : LowestOneAt u k) : k < n := BitVec.lt_of_getLsbD h.1

theorem HighestOneAt.unique {k' : Nat} (h : HighestOneAt u k) (h' : HighestOneAt u k') : k = k' := by
  obtain ⟨hbit, habove⟩ := h
  obtain ⟨hbit', habove'⟩ := h'
  rcases Nat.lt_trichotomy k k' with hlt | heq | hgt
  · exact absurd hbit' (by simp [habove k' hlt])
  · exact heq
  · exact absurd hbit (by simp [habove' k hgt])

theorem LowestOneAt.unique {k' : Nat} (h : LowestOneAt u k) (h' : LowestOneAt u k') : k = k' := by
  obtain ⟨hbit, hbelow⟩ := h
  obtain ⟨hbit', hbelow'⟩ := h'
  rcases Nat.lt_trichotomy k k' with hlt | heq | hgt
  · exact absurd hbit (by simp [hbelow' k hlt])
  · exact heq
  · exact absurd hbit' (by simp [hbelow k' hgt])

/-- `highestOne` finds the highest 1 bit of a vector, or the vector is 0. -/
theorem highestOne_cases (u : BitVec n) :
    (highestOne u n = none ∧ u = 0#n) ∨ ∃ k, highestOne u n = some k ∧ HighestOneAt u k := by
  have hspec := highestOne_spec u n
  cases hfound : highestOne u n with
  | none =>
    rw [hfound] at hspec
    exact .inl ⟨rfl, BitVec.eq_of_getLsbD_eq fun k hk => by rw [hspec k hk, BitVec.getLsbD_zero]⟩
  | some k =>
    rw [hfound] at hspec
    obtain ⟨-, hbit, habove⟩ := hspec
    refine .inr ⟨k, rfl, hbit, fun j hj => ?_⟩
    rcases lt_or_ge j n with hlt | hge
    · exact habove j hj hlt
    · exact BitVec.getLsbD_of_ge u j hge

/-- `lowestOne` finds the lowest 1 bit of a vector, or the vector is 0. -/
theorem lowestOne_cases (u : BitVec n) :
    (lowestOne u n = none ∧ u = 0#n) ∨ ∃ k, lowestOne u n = some k ∧ LowestOneAt u k := by
  have hspec := lowestOne_spec u n
  cases hfound : lowestOne u n with
  | none =>
    rw [hfound] at hspec
    exact .inl ⟨rfl, BitVec.eq_of_getLsbD_eq fun k hk => by rw [hspec k hk, BitVec.getLsbD_zero]⟩
  | some k =>
    rw [hfound] at hspec
    exact .inr ⟨k, rfl, hspec.2⟩

/-- A vector is 0 or has a highest 1 bit. -/
theorem zero_or_highestOneAt (u : BitVec n) : u = 0#n ∨ ∃ k, HighestOneAt u k :=
  (highestOne_cases u).imp And.right fun ⟨k, _, hk⟩ => ⟨k, hk⟩

/-- A vector is 0 or has a lowest 1 bit. -/
theorem zero_or_lowestOneAt (u : BitVec n) : u = 0#n ∨ ∃ k, LowestOneAt u k :=
  (lowestOne_cases u).imp And.right fun ⟨k, _, hk⟩ => ⟨k, hk⟩

theorem leadingZeros_of_highestOneAt (h : HighestOneAt u k) : leadingZeros u = n - 1 - k := by
  rcases highestOne_cases u with ⟨-, hzero⟩ | ⟨k', hfound, hk'⟩
  · exact absurd h.1 (by simp [hzero])
  · simp only [leadingZeros, hfound, h.unique hk']

theorem trailingZeros_of_lowestOneAt (h : LowestOneAt u k) : trailingZeros u = k := by
  rcases lowestOne_cases u with ⟨-, hzero⟩ | ⟨k', hfound, hk'⟩
  · exact absurd h.1 (by simp [hzero])
  · simp only [trailingZeros, hfound, h.unique hk']

theorem leadingZeros_zero (n : Nat) : leadingZeros 0#n = n := by
  rcases highestOne_cases 0#n with ⟨hnone, -⟩ | ⟨k, -, hk⟩
  · simp only [leadingZeros, hnone]
  · exact absurd hk.1 (by simp)

theorem trailingZeros_zero (n : Nat) : trailingZeros 0#n = n := by
  rcases lowestOne_cases 0#n with ⟨hnone, -⟩ | ⟨k, -, hk⟩
  · simp only [trailingZeros, hnone]
  · exact absurd hk.1 (by simp)

theorem leadingZeros_le (u : BitVec n) : leadingZeros u ≤ n := by
  rcases zero_or_highestOneAt u with rfl | ⟨k, hk⟩
  · rw [leadingZeros_zero]
  · rw [leadingZeros_of_highestOneAt hk]
    omega

theorem trailingZeros_le (u : BitVec n) : trailingZeros u ≤ n := by
  rcases zero_or_lowestOneAt u with rfl | ⟨k, hk⟩
  · rw [trailingZeros_zero]
  · rw [trailingZeros_of_lowestOneAt hk]
    exact hk.lt.le

theorem getLsbD_setWidth_of_le {m : Nat} (u : BitVec n) (h : n ≤ m) (k : Nat) : (u.setWidth m).getLsbD k = u.getLsbD k := by
  rw [BitVec.getLsbD_setWidth]
  rcases lt_or_ge k n with hlt | hge
  · simp [hlt.trans_le h]
  · simp [BitVec.getLsbD_of_ge u k hge]

/-- A zero extension has its extra bits in front (R272). -/
theorem leadingZeros_setWidth {m : Nat} (u : BitVec n) (h : n ≤ m) :
    leadingZeros (u.setWidth m) = leadingZeros u + (m - n) := by
  rcases zero_or_highestOneAt u with rfl | ⟨k, hk⟩
  · rw [BitVec.setWidth_zero, leadingZeros_zero, leadingZeros_zero]
    omega
  · have hk' : HighestOneAt (u.setWidth m) k := by
      simpa only [HighestOneAt, getLsbD_setWidth_of_le u h] using hk
    have hlt := hk.lt
    rw [leadingZeros_of_highestOneAt hk, leadingZeros_of_highestOneAt hk']
    omega

/-- The zeros of a zero extension below its lowest 1 bit are the vector's; for 0 they are capped at the vector's width (R278). -/
theorem min_trailingZeros_setWidth {m : Nat} (u : BitVec n) (h : n ≤ m) :
    min (trailingZeros (u.setWidth m)) n = trailingZeros u := by
  rcases zero_or_lowestOneAt u with rfl | ⟨k, hk⟩
  · rw [BitVec.setWidth_zero, trailingZeros_zero, trailingZeros_zero, min_eq_right h]
  · have hk' : LowestOneAt (u.setWidth m) k := by
      simpa only [LowestOneAt, getLsbD_setWidth_of_le u h] using hk
    rw [trailingZeros_of_lowestOneAt hk, trailingZeros_of_lowestOneAt hk', min_eq_left hk.lt.le]

/-- The highest 1 bit of an operand within its LogicalWidth is that of its pattern. -/
theorem highestOneAt_lowBits {bits : Nat} (hk : k < bits) (hbit : u.getLsbD k = true)
    (habove : ∀ j, k < j → j < bits → u.getLsbD j = false) : HighestOneAt (lowBits bits u) k := by
  refine ⟨by rw [getLsbD_lowBits, hbit, decide_eq_true hk]; rfl, fun j hj => ?_⟩
  rcases lt_or_ge j bits with hlt | hge
  · rw [getLsbD_lowBits, habove j hj hlt, Bool.and_false]
  · exact BitVec.getLsbD_of_ge _ j hge

/-- The lowest 1 bit of an operand, where it is within the LogicalWidth, is that of its pattern. -/
theorem lowestOneAt_lowBits {bits : Nat} (hk : k < bits) (hbit : u.getLsbD k = true)
    (hbelow : ∀ j, j < k → u.getLsbD j = false) : LowestOneAt (lowBits bits u) k :=
  ⟨by rw [getLsbD_lowBits, hbit, decide_eq_true hk]; rfl,
    fun j hj => by rw [getLsbD_lowBits, hbelow j hj, Bool.and_false]⟩

theorem leadingZeros_of_neg (h : u.toInt < 0) : leadingZeros u = 0 := by
  have htop : HighestOneAt u (n - 1) :=
    ⟨getLsbD_top_of_neg h, fun j hj => BitVec.getLsbD_of_ge u j (by omega)⟩
  rw [leadingZeros_of_highestOneAt htop, Nat.sub_self]

theorem trailingZeros_intMin (h1 : 1 ≤ n) : trailingZeros (BitVec.intMin n) = n - 1 := by
  apply trailingZeros_of_lowestOneAt
  refine ⟨?_, fun j hj => ?_⟩
  · rw [BitVec.getLsbD_intMin, decide_eq_true (by omega)]
  · rw [BitVec.getLsbD_intMin, decide_eq_false (by omega)]

theorem highestOneAt_of_upperHalf (hn : n / 2 + n / 2 = n) (h : HighestOneAt (upperHalf u) k) :
    HighestOneAt u (n / 2 + k) := by
  obtain ⟨hbit, habove⟩ := h
  refine ⟨?_, fun j hj => ?_⟩
  · rw [getLsbD_of_halves u hn, if_neg (by omega), Nat.add_sub_cancel_left, hbit]
  · rw [getLsbD_of_halves u hn, if_neg (by omega), habove _ (by omega)]

theorem highestOneAt_of_lowerHalf (hn : n / 2 + n / 2 = n) (hhi : upperHalf u = 0#(n / 2))
    (h : HighestOneAt (lowerHalf u) k) : HighestOneAt u k := by
  have hk := h.lt
  obtain ⟨hbit, habove⟩ := h
  refine ⟨?_, fun j hj => ?_⟩
  · rw [getLsbD_of_halves u hn, if_pos hk, hbit]
  · rw [getLsbD_of_halves u hn, hhi, habove j hj, BitVec.getLsbD_zero, ite_self]

theorem lowestOneAt_of_lowerHalf (hn : n / 2 + n / 2 = n) (h : LowestOneAt (lowerHalf u) k) : LowestOneAt u k := by
  have hk := h.lt
  obtain ⟨hbit, hbelow⟩ := h
  refine ⟨?_, fun j hj => ?_⟩
  · rw [getLsbD_of_halves u hn, if_pos hk, hbit]
  · rw [getLsbD_of_halves u hn, if_pos (by omega), hbelow j hj]

theorem lowestOneAt_of_upperHalf (hn : n / 2 + n / 2 = n) (hlo : lowerHalf u = 0#(n / 2))
    (h : LowestOneAt (upperHalf u) k) : LowestOneAt u (n / 2 + k) := by
  obtain ⟨hbit, hbelow⟩ := h
  refine ⟨?_, fun j hj => ?_⟩
  · rw [getLsbD_of_halves u hn, if_neg (by omega), Nat.add_sub_cancel_left, hbit]
  · rw [getLsbD_of_halves u hn, hlo, BitVec.getLsbD_zero]
    split
    · rfl
    · exact hbelow _ (by omega)

/-- The leading zeros of a vector are those of its upper half, and where that is 0 they reach into the lower one (R278). -/
theorem leadingZeros_eq_halves (u : BitVec n) (hn : n / 2 + n / 2 = n) :
    leadingZeros u =
      if upperHalf u ≠ 0#(n / 2) then leadingZeros (upperHalf u) else n / 2 + leadingZeros (lowerHalf u) := by
  rcases zero_or_highestOneAt (upperHalf u) with hhi | ⟨k, hk⟩
  · rw [if_neg (not_not.mpr hhi)]
    rcases zero_or_highestOneAt (lowerHalf u) with hlo | ⟨k, hk⟩
    · rw [hlo, eq_zero_of_halves u hn hhi hlo, leadingZeros_zero, leadingZeros_zero, hn]
    · have hlt := hk.lt
      rw [leadingZeros_of_highestOneAt hk, leadingZeros_of_highestOneAt (highestOneAt_of_lowerHalf hn hhi hk)]
      omega
  · have hne : upperHalf u ≠ 0#(n / 2) := fun hzero => absurd hk.1 (by rw [hzero]; simp)
    rw [if_pos hne, leadingZeros_of_highestOneAt hk, leadingZeros_of_highestOneAt (highestOneAt_of_upperHalf hn hk)]
    omega

/-- The trailing zeros of a vector are those of its lower half, and where that is 0 they reach into the upper one (R278). -/
theorem trailingZeros_eq_halves (u : BitVec n) (hn : n / 2 + n / 2 = n) :
    trailingZeros u =
      if lowerHalf u ≠ 0#(n / 2) then trailingZeros (lowerHalf u) else n / 2 + trailingZeros (upperHalf u) := by
  rcases zero_or_lowestOneAt (lowerHalf u) with hlo | ⟨k, hk⟩
  · rw [if_neg (not_not.mpr hlo)]
    rcases zero_or_lowestOneAt (upperHalf u) with hhi | ⟨k, hk⟩
    · rw [hhi, eq_zero_of_halves u hn hhi hlo, trailingZeros_zero, trailingZeros_zero, hn]
    · rw [trailingZeros_of_lowestOneAt hk, trailingZeros_of_lowestOneAt (lowestOneAt_of_upperHalf hn hlo hk)]
  · have hne : lowerHalf u ≠ 0#(n / 2) := fun hzero => absurd hk.1 (by rw [hzero]; simp)
    rw [if_pos hne, trailingZeros_of_lowestOneAt hk, trailingZeros_of_lowestOneAt (lowestOneAt_of_lowerHalf hn hk)]
end

/-- The recursive unit counts the leading zeros (R278). -/
theorem recClz_eq_leadingZeros {k n : Nat} (hn : n = 8 * 2 ^ k) (x : BitVec n) : recClz k x = leadingZeros x := by
  induction k generalizing n with
  | zero => rfl
  | succ k ih =>
    obtain ⟨hhalf, hsum⟩ := half_of_levels hn
    rw [recClz, ih hhalf, ih hhalf, leadingZeros_eq_halves x hsum]

/-- The recursive unit counts the trailing zeros (R278). -/
theorem recCtz_eq_trailingZeros {k n : Nat} (hn : n = 8 * 2 ^ k) (x : BitVec n) : recCtz k x = trailingZeros x := by
  induction k generalizing n with
  | zero => rfl
  | succ k ih =>
    obtain ⟨hhalf, hsum⟩ := half_of_levels hn
    rw [recCtz, ih hhalf, ih hhalf, trailingZeros_eq_halves x hsum]

/-! ## The number of 1 bits (R274) -/

section
variable {n m : Nat}

/-- A count looks only at the bits it counts. -/
theorem onesBelow_congr {x : BitVec n} {y : BitVec m} {c : Nat} (h : ∀ k, k < c → x.getLsbD k = y.getLsbD k) :
    onesBelow x c = onesBelow y c := by
  induction c with
  | zero => rfl
  | succ c ih => rw [onesBelow, onesBelow, ih fun k hk => h k (by omega), h c (by omega)]

/-- The 1 bits below `c + d` are those below `c` and those of the `d` bits from `c` up. -/
theorem onesBelow_add {x : BitVec n} {y : BitVec m} {c d : Nat} (h : ∀ k, k < d → y.getLsbD k = x.getLsbD (c + k)) :
    onesBelow x (c + d) = onesBelow x c + onesBelow y d := by
  induction d with
  | zero => rfl
  | succ d ih =>
    rw [← Nat.add_assoc, onesBelow, onesBelow, ih fun k hk => h k (by omega), h d (by omega), Nat.add_assoc]

theorem onesBelow_eq_count (x : BitVec n) (c : Nat) : onesBelow x c = Nat.count (fun k => x.getLsbD k) c := by
  induction c with
  | zero => rfl
  | succ c ih => rw [onesBelow, ih, Nat.count_succ, Bool.toNat, Bool.cond_eq_ite]

theorem onesBelow_eq_length_filter (x : BitVec n) (c : Nat) :
    onesBelow x c = ((List.range c).filter fun k => x.getLsbD k).length := by
  rw [onesBelow_eq_count, Nat.count, List.countP_eq_length_filter]
  simp

theorem onesBelow_zero (n c : Nat) : onesBelow 0#n c = 0 := by
  rw [onesBelow_eq_count, Nat.count_iff_forall_not]
  simp

theorem popcnt_le (u : BitVec n) : popcnt u ≤ n := onesBelow_le u n

theorem popcnt_allOnes (n : Nat) : popcnt (BitVec.allOnes n) = n := by
  rw [popcnt, onesBelow_eq_count, Nat.count_iff_forall]
  simp

/-- The bits a zero extension adds are not counted. -/
theorem popcnt_setWidth (u : BitVec n) (h : n ≤ m) : popcnt (u.setWidth m) = popcnt u := by
  have hadded : ∀ k, k < m - n → (0#m).getLsbD k = (u.setWidth m).getLsbD (n + k) := by
    intro k _
    rw [getLsbD_setWidth_of_le u h, BitVec.getLsbD_of_ge u _ (by omega), BitVec.getLsbD_zero]
  calc onesBelow (u.setWidth m) m
    _ = onesBelow (u.setWidth m) (n + (m - n)) := by rw [Nat.add_sub_cancel' h]
    _ = onesBelow (u.setWidth m) n := by rw [onesBelow_add hadded, onesBelow_zero, Nat.add_zero]
    _ = onesBelow u n := onesBelow_congr fun k _ => getLsbD_setWidth_of_le u h k

theorem popcnt_lowBits (x : BitVec n) (bits : Nat) : popcnt (lowBits bits x) = onesBelow x bits :=
  onesBelow_congr fun k hk => by rw [getLsbD_lowBits, decide_eq_true hk, Bool.true_and]

theorem popcnt_eq_halves (x : BitVec n) (hn : n / 2 + n / 2 = n) :
    popcnt x = popcnt (upperHalf x) + popcnt (lowerHalf x) := by
  calc onesBelow x n
    _ = onesBelow x (n / 2 + n / 2) := by rw [hn]
    _ = onesBelow x (n / 2) + popcnt (upperHalf x) := onesBelow_add fun _ => getLsbD_upperHalf x
    _ = popcnt (upperHalf x) + onesBelow (lowerHalf x) (n / 2) := by
      rw [Nat.add_comm, onesBelow_congr fun k hk => (getLsbD_lowerHalf x hk).symm]
end

/-- The recursive unit counts the 1 bits (R278). -/
theorem recPopcnt_eq_popcnt {k n : Nat} (hn : n = 8 * 2 ^ k) (x : BitVec n) : recPopcnt k x = popcnt x := by
  induction k generalizing n with
  | zero => rfl
  | succ k ih =>
    obtain ⟨hhalf, hsum⟩ := half_of_levels hn
    rw [recPopcnt, ih hhalf, ih hhalf, popcnt_eq_halves x hsum]

/-! ## Bytes and bits in reverse order (R275, R276) -/

/-- The place in a vector of `n` bits from which a byte swap takes bit `t`. -/
def swapIndex (n t : Nat) : Nat := 8 * (n / 8 - 1 - t / 8) + t % 8

section
variable {n : Nat}

theorem getLsbD_swapBytes (u : BitVec n) {t : Nat} (ht : t < n) :
    (swapBytes u).getLsbD t = u.getLsbD (swapIndex n t) := by
  rw [swapIndex, swapBytes, getLsbD_ofBits, decide_eq_true ht, Bool.true_and]

theorem getLsbD_reverseBits (u : BitVec n) {j : Nat} (hj : j < n) : (reverseBits u).getLsbD j = u.getLsbD (n - 1 - j) := by
  rw [reverseBits, getLsbD_ofBits, decide_eq_true hj, Bool.true_and]

theorem swapIndex_lt {t : Nat} (hn : n % 8 = 0) (ht : t < n) : swapIndex n t < n := by
  rw [swapIndex]
  omega

/-- A second swap takes the bit back. -/
theorem swapIndex_swapIndex {t : Nat} (hn : n % 8 = 0) (ht : t < n) : swapIndex n (swapIndex n t) = t := by
  simp only [swapIndex]
  omega

/-- Byte `j` is taken from byte `n / 8 - 1 - j`. -/
theorem swapIndex_byte {j t : Nat} (ht : t < 8) : swapIndex n (8 * j + t) = 8 * (n / 8 - 1 - j) + t := by
  rw [swapIndex]
  omega

/-- The lower half of a swap is taken from the upper half, swapped. -/
theorem swapIndex_lower {k : Nat} (hn : n / 2 + n / 2 = n) (hbytes : n / 2 % 8 = 0) (hk : k < n / 2) :
    swapIndex n k = n / 2 + swapIndex (n / 2) k := by
  simp only [swapIndex]
  omega

/-- The upper half of a swap is taken from the lower half, swapped. -/
theorem swapIndex_upper {k : Nat} (hn : n / 2 + n / 2 = n) (hbytes : n / 2 % 8 = 0) (hk : k < n / 2) :
    swapIndex n (n / 2 + k) = swapIndex (n / 2) k := by
  simp only [swapIndex]
  omega

/-- The top `bits` bits of a swap are taken from the low `bits` bits, swapped. -/
theorem swapIndex_top {bits k : Nat} (hb : bits ≤ n) (hn : n % 8 = 0) (hbits : bits % 8 = 0) (hk : k < bits) :
    swapIndex n (n - bits + k) = swapIndex bits k := by
  simp only [swapIndex]
  omega

theorem swapBytes_swapBytes (u : BitVec n) (hn : n % 8 = 0) : swapBytes (swapBytes u) = u := by
  apply BitVec.eq_of_getLsbD_eq
  intro t ht
  rw [getLsbD_swapBytes _ ht, getLsbD_swapBytes _ (swapIndex_lt hn ht), swapIndex_swapIndex hn ht]

theorem reverseBits_reverseBits (u : BitVec n) : reverseBits (reverseBits u) = u := by
  apply BitVec.eq_of_getLsbD_eq
  intro j hj
  have hback : n - 1 - (n - 1 - j) = j := by omega
  rw [getLsbD_reverseBits _ hj, getLsbD_reverseBits _ (by omega), hback]

/-- One byte is its own swap. -/
theorem swapBytes_of_one_byte (u : BitVec n) (hn : n = 8) : swapBytes u = u := by
  apply BitVec.eq_of_getLsbD_eq
  intro t ht
  have hindex : swapIndex n t = t := by
    rw [swapIndex]
    omega
  rw [getLsbD_swapBytes u ht, hindex]

/-- A pattern that is a palindrome is its own reverse. -/
theorem reverseBits_lowBits_of_palindrome {a : BitVec n} {bits : Nat}
    (h : ∀ j, j < bits → a.getLsbD (bits - 1 - j) = a.getLsbD j) : reverseBits (lowBits bits a) = lowBits bits a := by
  apply BitVec.eq_of_getLsbD_eq
  intro j hj
  rw [getLsbD_reverseBits _ hj, getLsbD_lowBits, getLsbD_lowBits, h j hj, decide_eq_true hj, decide_eq_true (by omega)]

/-- Swapping the bytes of both halves and exchanging the halves swaps the bytes (R278). -/
theorem swapBytes_eq_halves (x : BitVec n) (hn : n / 2 + n / 2 = n) (hbytes : n / 2 % 8 = 0) :
    swapBytes x = (swapBytes (lowerHalf x) ++ swapBytes (upperHalf x)).setWidth n := by
  refine eq_append_setWidth hn ?lower ?upper
  case lower =>
    intro k hk
    rw [getLsbD_swapBytes x (by omega), swapIndex_lower hn hbytes hk, getLsbD_swapBytes _ hk,
      getLsbD_upperHalf x (swapIndex_lt hbytes hk)]
  case upper =>
    intro k hk
    rw [getLsbD_swapBytes x (by omega), swapIndex_upper hn hbytes hk, getLsbD_swapBytes _ hk,
      getLsbD_lowerHalf x (swapIndex_lt hbytes hk)]

/-- Reversing both halves and exchanging them reverses the vector (R278). -/
theorem reverseBits_eq_halves (x : BitVec n) (hn : n / 2 + n / 2 = n) :
    reverseBits x = (reverseBits (lowerHalf x) ++ reverseBits (upperHalf x)).setWidth n := by
  refine eq_append_setWidth hn ?lower ?upper
  case lower =>
    intro k hk
    have hlt : n / 2 - 1 - k < n / 2 := by omega
    have hindex : n - 1 - k = n / 2 + (n / 2 - 1 - k) := by omega
    rw [getLsbD_reverseBits x (by omega), getLsbD_reverseBits _ hk, getLsbD_upperHalf x hlt, hindex]
  case upper =>
    intro k hk
    have hlt : n / 2 - 1 - k < n / 2 := by omega
    have hindex : n - 1 - (n / 2 + k) = n / 2 - 1 - k := by omega
    rw [getLsbD_reverseBits x (by omega), getLsbD_reverseBits _ hk, getLsbD_lowerHalf x hlt, hindex]

/-- Swapping the bytes of a zero extension moves the swapped vector to the top of the container (R278). -/
theorem lowBits_swapBytes_setWidth {bits : Nat} (u : BitVec bits) (hb : bits ≤ n) (hn : n % 8 = 0) (hbits : bits % 8 = 0) :
    lowBits bits (swapBytes (u.setWidth n) >>> (n - bits)) = swapBytes u := by
  apply BitVec.eq_of_getLsbD_eq
  intro k hk
  rw [getLsbD_lowBits, decide_eq_true hk, Bool.true_and, BitVec.getLsbD_ushiftRight, getLsbD_swapBytes _ (by omega),
    getLsbD_setWidth_of_le u hb, swapIndex_top hb hn hbits hk, getLsbD_swapBytes u hk]

/-- Reversing a zero extension moves the reversed vector to the top of the container (R278). -/
theorem lowBits_reverseBits_setWidth {bits : Nat} (u : BitVec bits) (hb : bits ≤ n) :
    lowBits bits (reverseBits (u.setWidth n) >>> (n - bits)) = reverseBits u := by
  apply BitVec.eq_of_getLsbD_eq
  intro k hk
  have hindex : n - 1 - (n - bits + k) = bits - 1 - k := by omega
  rw [getLsbD_lowBits, decide_eq_true hk, Bool.true_and, BitVec.getLsbD_ushiftRight, getLsbD_reverseBits _ (by omega),
    getLsbD_setWidth_of_le u hb, hindex, getLsbD_reverseBits u hk]
end

/-- The recursive unit swaps the bytes (R278). -/
theorem recSwap_eq_swapBytes {k n : Nat} (hn : n = 8 * 2 ^ k) (x : BitVec n) : recSwap k x = swapBytes x := by
  induction k generalizing n with
  | zero => exact (swapBytes_of_one_byte x hn).symm
  | succ k ih =>
    obtain ⟨hhalf, hsum⟩ := half_of_levels hn
    rw [recSwap, ih hhalf, ih hhalf, swapBytes_eq_halves x hsum (by omega)]

/-- The recursive unit reverses the bits (R278). -/
theorem recReverse_eq_reverseBits {k n : Nat} (hn : n = 8 * 2 ^ k) (x : BitVec n) : recReverse k x = reverseBits x := by
  induction k generalizing n with
  | zero => rfl
  | succ k ih =>
    obtain ⟨hhalf, hsum⟩ := half_of_levels hn
    rw [recReverse, ih hhalf, ih hhalf, reverseBits_eq_halves x hsum]

/-! ## The units at a LogicalWidth (R278) -/

section
variable {w : Width} {bits : Nat} (a : BitVec w.bits)

theorem recursiveClz_eq (hb : bits ≤ w.bits) : recursiveClz w bits a = leadingZeros (lowBits bits a) := by
  rw [recursiveClz, recClz_eq_leadingZeros (bits_eq_levels w), logicalPattern, leadingZeros_setWidth _ hb,
    Nat.add_sub_cancel]

theorem recursiveCtz_eq (hb : bits ≤ w.bits) : recursiveCtz w bits a = trailingZeros (lowBits bits a) := by
  rw [recursiveCtz, recCtz_eq_trailingZeros (bits_eq_levels w), logicalPattern, min_trailingZeros_setWidth _ hb]

theorem recursivePopcount_eq (hb : bits ≤ w.bits) : recursivePopcount w bits a = popcnt (lowBits bits a) := by
  rw [recursivePopcount, recPopcnt_eq_popcnt (bits_eq_levels w), logicalPattern, popcnt_setWidth _ hb]

theorem recursiveByteswap_eq (sg : Sign) (hb : bits ≤ w.bits) (hbytes : bits % 8 = 0) :
    recursiveByteswap sg w bits a = extend sg w.bits (swapBytes (lowBits bits a)) := by
  have hcontainer := bits_eq_levels w
  rw [recursiveByteswap, recSwap_eq_swapBytes hcontainer, logicalPattern, wrapValue,
    lowBits_swapBytes_setWidth _ hb (by omega) hbytes]

theorem recursiveBitreverse_eq (sg : Sign) (hb : bits ≤ w.bits) :
    recursiveBitreverse sg w bits a = extend sg w.bits (reverseBits (lowBits bits a)) := by
  rw [recursiveBitreverse, recReverse_eq_reverseBits (bits_eq_levels w), logicalPattern, wrapValue,
    lowBits_reverseBits_setWidth _ hb]
end

/-! ## The rows of the family -/

section
variable {s : State} {sg : Sign} {w : Width} {bits : BitVec 8} {a : BitVec w.bits}

/-- A row that counts within the LogicalWidth completes with the count of the pattern (R271). -/
theorem exec_of_counting {i : Instr} {count : {k : Nat} → BitVec k → Nat}
    (he : exec i s = counting count sg w.bits bits a s) (hs : s.fault = 0x00#8) (hw : LegalWidth w bits)
    (ha : canonical sg bits.toNat a = true) :
    exec i s = .next (completed (BitVec.ofNat 8 (count (lowBits bits.toNat a))) s) := by
  have henc : BitVec.ofNat 8 (count (lowBits bits.toNat a)) = enc 8 (count (lowBits bits.toNat a) : Nat) :=
    (BitVec.ofInt_natCast 8 _).symm
  rw [henc]
  exact he.trans (serve_completes hs (firstFault_unaryChecks hw ha) _ _)

/-- What a row answers that counts: a count of at most `bits` is read back from the 8-bit result. -/
theorem counting_row_answers {i : Instr} {count : {k : Nat} → BitVec k → Nat}
    (he : exec i s = counting count sg w.bits bits a s) (hcount : ∀ {k : Nat} (u : BitVec k), count u ≤ k)
    (hs : s.fault = 0x00#8) :
    FaultsOnWidth i w bits s ∧ FaultsOnOperands i w bits (canonical sg bits.toNat a) s ∧
      (LegalWidth w bits → canonical sg bits.toNat a = true →
        ∃ c : BitVec 8, exec i s = .next (completed c s) ∧ c.toNat = count (lowBits bits.toNat a)) := by
  refine ⟨faultsOnWidth_of_serve he hs, faultsOnOperands_of_serve he hs, fun hw ha => ?_⟩
  have hfits : count (lowBits bits.toNat a) < 2 ^ 8 := (hcount _).trans_lt bits.isLt
  exact ⟨_, exec_of_counting he hs hw ha, Nat.mod_eq_of_lt hfits⟩

/-- BYTESWAP checks for whole bytes before canonicity (R310). -/
theorem firstFault_byteswapChecks (hw : LegalWidth w bits) :
    firstFault [widthCheck w.bits bits.toNat, byteMultipleCheck bits.toNat, canonicalCheck sg bits.toNat a] =
      if bits.toNat % 8 = 0 then
        if canonical sg bits.toNat a = true then none else some .nonCanonicalOperand
      else some .byteSwapWidth := by
  rw [firstFault_widthCheck hw, byteMultipleCheck, firstFault_cons, firstFault_canonicalCheck]
  simp

theorem exec_byteswapRow_of_legal (hs : s.fault = 0x00#8) (hw : LegalWidth w bits) (hbytes : bits.toNat % 8 = 0)
    (ha : canonical sg bits.toNat a = true) :
    exec (byteswapRow sg w bits a) s = .next (completed (extend sg w.bits (swapBytes (lowBits bits.toNat a))) s) := by
  rw [exec_byteswapRow]
  exact serve_completes hs (by rw [firstFault_byteswapChecks hw, if_pos hbytes, if_pos ha]) _ _

theorem exec_bitreverseRow_of_legal (hs : s.fault = 0x00#8) (hw : LegalWidth w bits)
    (ha : canonical sg bits.toNat a = true) :
    exec (bitreverseRow sg w bits a) s = .next (completed (extend sg w.bits (reverseBits (lowBits bits.toNat a))) s) := by
  rw [exec_bitreverseRow]
  exact serve_completes hs (firstFault_unaryChecks hw ha) _ _

/-- BYTESWAP of a swapped operand gives the operand back (R277). -/
theorem exec_byteswapRow_swapped (hs : s.fault = 0x00#8) (hw : LegalWidth w bits) (hbytes : bits.toNat % 8 = 0)
    (ha : canonical sg bits.toNat a = true) :
    exec (byteswapRow sg w bits (extend sg w.bits (swapBytes (lowBits bits.toNat a)))) s = .next (completed a s) := by
  rw [exec_byteswapRow_of_legal hs hw hbytes (canonical_extend sg _ hw.1 hw.2), lowBits_extend sg _ hw.2,
    swapBytes_swapBytes _ hbytes, extend_lowBits_of_canonical hw.1 hw.2 ha]

/-- BITREVERSE of a reversed operand gives the operand back (R277). -/
theorem exec_bitreverseRow_reversed (hs : s.fault = 0x00#8) (hw : LegalWidth w bits)
    (ha : canonical sg bits.toNat a = true) :
    exec (bitreverseRow sg w bits (extend sg w.bits (reverseBits (lowBits bits.toNat a)))) s = .next (completed a s) := by
  rw [exec_bitreverseRow_of_legal hs hw (canonical_extend sg _ hw.1 hw.2), lowBits_extend sg _ hw.2,
    reverseBits_reverseBits, extend_lowBits_of_canonical hw.1 hw.2 ha]
end

/-! ## The statements -/

/-- Settles O23: the count is given by the pattern's highest 1 bit, which a negative operand has at the top; zero extension
puts N - bits zeros in front. -/
theorem clzCountsWithinWidth : Obligations.ClzCountsWithinWidth := by
  intro sg w bits a s hs
  obtain ⟨hwidth, hoperands, hlegal⟩ := counting_row_answers (exec_clzRow sg w bits a s) leadingZeros_le hs
  refine ⟨by rw [encode_cw, fieldsOf_clzRow]; rfl, hwidth, hoperands, fun hw ha => ?_⟩
  obtain ⟨c, hexec, hc⟩ := hlegal hw ha
  refine ⟨c, hexec, ?zero, ?highest, ?extended, ?negative, hc.trans_le (leadingZeros_le _)⟩
  case zero =>
    rintro rfl
    rw [hc, lowBits_zero, leadingZeros_zero]
  case highest =>
    intro k hk hbit habove
    rw [hc, leadingZeros_of_highestOneAt (highestOneAt_lowBits hk hbit habove)]
  case extended =>
    intro _
    rw [hc, logicalPattern, leadingZeros_setWidth _ hw.2, Nat.add_sub_cancel]
  case negative =>
    rintro rfl hneg
    rw [hc, leadingZeros_of_neg]
    exact (val_lowBits_of_canonical hw.1 hw.2 ha).trans_lt hneg

/-- Settles O24: the count is given by the pattern's lowest 1 bit, which for minInt is its only one. -/
theorem ctzCountsWithinWidth : Obligations.CtzCountsWithinWidth := by
  intro sg w bits a s hs
  obtain ⟨hwidth, hoperands, hlegal⟩ := counting_row_answers (exec_ctzRow sg w bits a s) trailingZeros_le hs
  refine ⟨by rw [encode_cw, fieldsOf_ctzRow]; rfl, hwidth, hoperands, fun hw ha => ?_⟩
  obtain ⟨c, hexec, hc⟩ := hlegal hw ha
  refine ⟨c, hexec, ?zero, ?lowest, ?minimum, hc.trans_le (trailingZeros_le _)⟩
  case zero =>
    rintro rfl
    rw [hc, lowBits_zero, trailingZeros_zero]
  case lowest =>
    intro k hk hbit hbelow
    rw [hc, trailingZeros_of_lowestOneAt (lowestOneAt_lowBits hk hbit hbelow)]
  case minimum =>
    rintro rfl hmin
    have hval : (lowBits bits.toNat a).toInt = minInt .i bits.toNat :=
      (val_lowBits_of_canonical hw.1 hw.2 ha).trans hmin
    rw [hc, eq_intMin_of_toInt hw.1 hval, trailingZeros_intMin hw.1]

/-- Settles O25: the pattern has the operand's bits below `bits` and no others, so a sign copy above is not counted. -/
theorem popcountCountsWithinWidth : Obligations.PopcountCountsWithinWidth := by
  intro sg w bits a s hs
  obtain ⟨hwidth, hoperands, hlegal⟩ := counting_row_answers (exec_popcountRow sg w bits a s) popcnt_le hs
  refine ⟨by rw [encode_cw, fieldsOf_popcountRow]; rfl, hwidth, hoperands, fun hw ha => ?_⟩
  obtain ⟨c, hexec, hc⟩ := hlegal hw ha
  refine ⟨c, hexec, ?count, ?zero, ?minusOne, hc.trans_le (popcnt_le _)⟩
  case count => rw [hc, popcnt_lowBits, onesBelow_eq_length_filter]
  case zero =>
    rintro rfl
    rw [hc, lowBits_zero, popcnt, onesBelow_zero]
  case minusOne =>
    rintro rfl hneg
    have hval : (lowBits bits.toNat a).toInt = -1 := (val_lowBits_of_canonical hw.1 hw.2 ha).trans hneg
    rw [hc, eq_allOnes_of_toInt hw.1 hval, popcnt_allOnes]

/-- Settles O26: the result extends the swapped pattern, so its low bits are that pattern, and swapping them again gives the
operand's. -/
theorem byteswapReversesBytes : Obligations.ByteswapReversesBytes := by
  intro sg w bits a s hs
  refine ⟨by rw [encode_cw, fieldsOf_byteswapRow]; rfl, faultsOnWidth_of_serve (exec_byteswapRow sg w bits a s) hs,
    ?partialByte, ?nonCanonical, ?completes⟩
  case partialByte =>
    intro hw hbytes
    rw [exec_byteswapRow]
    exact serve_faults hs (by rw [firstFault_byteswapChecks hw, if_neg hbytes]) _ _
  case nonCanonical =>
    intro hw hbytes ha
    rw [exec_byteswapRow]
    exact serve_faults hs (by rw [firstFault_byteswapChecks hw, if_pos hbytes, ha]; rfl) _ _
  case completes =>
    intro hw hbytes ha
    have hcanonical := canonical_extend (n := w.bits) sg (swapBytes (lowBits bits.toNat a)) hw.1 hw.2
    refine ⟨_, exec_byteswapRow_of_legal hs hw hbytes ha, ?bytes, (canonical_iff_getLsbD sg _ hw.1 hw.2).mp hcanonical,
      hcanonical, ?oneByte, exec_byteswapRow_swapped hs hw hbytes ha⟩
    case bytes =>
      intro j t hj ht
      rw [getLsbD_extend_of_lt sg _ hw.2 (by omega), getLsbD_swapBytes _ (by omega), swapIndex_byte ht, getLsbD_lowBits,
        decide_eq_true (by omega), Bool.true_and]
    case oneByte =>
      intro hone
      rw [swapBytes_of_one_byte _ hone, extend_lowBits_of_canonical hw.1 hw.2 ha]

/-- Settles O27: the result extends the reversed pattern; a pattern that is a palindrome gives the operand itself. -/
theorem bitreverseReversesBits : Obligations.BitreverseReversesBits := by
  intro sg w bits a s hs
  refine ⟨by rw [encode_cw, fieldsOf_bitreverseRow]; rfl, faultsOnWidth_of_serve (exec_bitreverseRow sg w bits a s) hs,
    faultsOnOperands_of_serve (exec_bitreverseRow sg w bits a s) hs, fun hw ha => ?_⟩
  have hcanonical := canonical_extend (n := w.bits) sg (reverseBits (lowBits bits.toNat a)) hw.1 hw.2
  have hpalindrome (h : ∀ j, j < bits.toNat → a.getLsbD (bits.toNat - 1 - j) = a.getLsbD j) :
      extend sg w.bits (reverseBits (lowBits bits.toNat a)) = a := by
    rw [reverseBits_lowBits_of_palindrome h, extend_lowBits_of_canonical hw.1 hw.2 ha]
  refine ⟨_, exec_bitreverseRow_of_legal hs hw ha, ?reversed, (canonical_iff_getLsbD sg _ hw.1 hw.2).mp hcanonical,
    hcanonical, ?oneBit, ?zero, ?ones⟩
  case reversed =>
    intro j hj
    rw [getLsbD_extend_of_lt sg _ hw.2 hj, getLsbD_reverseBits _ hj, getLsbD_lowBits, decide_eq_true (by omega),
      Bool.true_and]
  case oneBit =>
    intro hone
    refine hpalindrome fun j hj => ?_
    rw [show bits.toNat - 1 - j = j by omega]
  case zero =>
    rintro rfl
    exact hpalindrome fun j _ => by rw [BitVec.getLsbD_zero, BitVec.getLsbD_zero]
  case ones =>
    intro hones
    exact hpalindrome fun j hj => by rw [hones j hj, hones _ (by omega)]

/-- Settles O28: the second request reads the pattern the first one rearranged, and both rearrangements undo themselves. -/
theorem swapAndReverseAreInvolutions : Obligations.SwapAndReverseAreInvolutions := by
  intro sg w bits x s hs hw hx
  have hs' {n : Nat} (y : BitVec n) : (completed y s).fault = 0x00#8 := hs
  exact ⟨fun hbytes => ⟨_, exec_byteswapRow_of_legal hs hw hbytes hx, exec_byteswapRow_swapped (hs' _) hw hbytes hx⟩,
    _, exec_bitreverseRow_of_legal hs hw hx, exec_bitreverseRow_reversed (hs' _) hw hx⟩

/-- Settles O29: each operation splits over the halves as its recursive unit does, and the unit of the container, applied to
the zero-extended pattern, gives what the row answers. -/
theorem recursiveUnitsGiveTheResults : Obligations.RecursiveUnitsGiveTheResults := by
  intro sg w bits a s hs hw ha
  rw [recursiveClz_eq a hw.2, recursiveCtz_eq a hw.2, recursivePopcount_eq a hw.2, recursiveBitreverse_eq a sg hw.2]
  refine ⟨?clz, ?ctz, ?popcount, fun hbytes => ?byteswap, exec_bitreverseRow_of_legal hs hw ha⟩
  case clz => exact exec_of_counting (exec_clzRow sg w bits a s) hs hw ha
  case ctz => exact exec_of_counting (exec_ctzRow sg w bits a s) hs hw ha
  case popcount => exact exec_of_counting (exec_popcountRow sg w bits a s) hs hw ha
  case byteswap =>
    rw [recursiveByteswap_eq a sg hw.2 hbytes]
    exact exec_byteswapRow_of_legal hs hw hbytes ha

end Sys2Proof.Machine
end

section
/-!
PROOFS. The check sequence of a request (60_exceptions.md R310, R311), fault entry (R312) and the faulted block (R313). First the
rows of R310 that read the control word alone, then those that read LogicalWidth and operands, then what the step of a request
makes of them, then the statements.
-/

namespace Sys2Proof.Machine

/-! ## The rows of the control word (R310 rows 1 to 6) -/

/-- Rows 1 to 6 of R310, which read the control word alone. -/
def wordRows (r : Request) : List (Bool × FaultCode) := (checkRows r).take 6

/-- Rows 7 to 13 of R310, which read LogicalWidth and operands. -/
def operandRows (r : Request) : List (Bool × FaultCode) := (checkRows r).drop 6

section
variable {r : Request}

theorem firstCheck_eq_or (r : Request) : firstCheck r = (firstFault (wordRows r)).or (firstFault (operandRows r)) := by
  rw [firstCheck, wordRows, operandRows, ← firstFault_append, List.take_append_drop]

/-- The first row that applies to a control word: RSV and W come before the reserved OP values, the opcode map after them. -/
theorem firstFault_wordRows (r : Request) : firstFault (wordRows r) =
    if reservedNumber r.cw ≠ 0 ∨ 5 ≤ widthNumber r.cw then some .illegalEncoding
    else if opNumber r.cw = 0x0F ∨ opNumber r.cw = 0x13 then some .reservedOp
    else if opNumber r.cw ∉ listedOps ∨ opNumber r.cw ∈ only128Ops ∧ (widthNumber r.cw ≠ 4 ∨ bitsNumber r.cw ≠ 0) then
      some .illegalEncoding
    else none := by
  simp only [wordRows, checkRows, List.take_succ_cons, List.take_zero, firstFault_cons, firstFault_nil, Bool.and_eq_true,
    Bool.not_eq_true', Bool.not_not, decide_eq_true_eq, List.contains_iff_mem]
  grind

theorem firstCheck_of_illegal (h : IllegalWord r.cw) : firstCheck r = some .illegalEncoding := by
  have hreserved : ¬ReservedWord r.cw := fun hr => not_illegalWord_of_reserved hr h
  rw [firstCheck_eq_or, firstFault_wordRows]
  by_cases hfields : reservedNumber r.cw ≠ 0 ∨ 5 ≤ widthNumber r.cw
  case pos => rw [if_pos hfields, Option.some_or]
  case neg =>
    have hop : ¬(opNumber r.cw = 0x0F ∨ opNumber r.cw = 0x13) := fun hop => hreserved ⟨by omega, by omega, hop⟩
    have hmap : opNumber r.cw ∉ listedOps ∨
        opNumber r.cw ∈ only128Ops ∧ (widthNumber r.cw ≠ 4 ∨ bitsNumber r.cw ≠ 0) := by
      rcases h with hrsv | hw | ⟨hunlisted, -⟩ | ⟨honly, hw⟩ | ⟨honly, hbits⟩
      · exact absurd (.inl hrsv) hfields
      · exact absurd (.inr hw) hfields
      · exact .inl hunlisted
      · exact .inr ⟨honly, .inl hw⟩
      · exact .inr ⟨honly, .inr hbits⟩
    rw [if_neg hfields, if_neg hop, if_pos hmap, Option.some_or]

theorem firstCheck_of_reserved (h : ReservedWord r.cw) : firstCheck r = some .reservedOp := by
  obtain ⟨hrsv, hw, hop⟩ := h
  rw [firstCheck_eq_or, firstFault_wordRows, if_neg (by omega), if_pos hop, Option.some_or]

/-- No row of the control word applies to a word that is neither illegal nor reserved. -/
theorem firstCheck_of_legal (h : LegalWord r.cw) : firstCheck r = firstFault (operandRows r) := by
  have hillegal := not_illegalWord_of_legal h
  simp only [IllegalWord, not_or, not_and, not_not] at hillegal
  obtain ⟨hrsv, hw, hlisted, honlyW, honlyBits⟩ := hillegal
  have hop : ¬(opNumber r.cw = 0x0F ∨ opNumber r.cw = 0x13) := fun hop =>
    not_reservedWord_of_legal h ⟨hrsv, by omega, hop⟩
  have hmap : ¬(opNumber r.cw ∉ listedOps ∨
      opNumber r.cw ∈ only128Ops ∧ (widthNumber r.cw ≠ 4 ∨ bitsNumber r.cw ≠ 0)) := by
    rintro (hunlisted | ⟨honly, hne | hne⟩)
    · exact hop (or_iff_not_imp_left.mpr (hlisted hunlisted))
    · exact hne (honlyW honly)
    · exact hne (honlyBits honly)
  rw [firstCheck_eq_or, firstFault_wordRows, if_neg (by omega), if_neg hop, if_neg hmap, Option.none_or]

/-- A request that the decoder rejects, it rejects with the fault of the first row that applies. -/
theorem firstCheck_of_decodeFields_error {c : FaultCode} (h : decodeFields r = .error c) : firstCheck r = some c := by
  rcases decodeFields_error h with ⟨rfl, hillegal⟩ | ⟨rfl, hreserved⟩
  · exact firstCheck_of_illegal hillegal
  · exact firstCheck_of_reserved hreserved
end

/-! ## The rows of LogicalWidth and operands (R310 rows 7 to 13) -/

/-- The checks that the operation of these fields makes (R310 rows 7 to 13). -/
def checksOf (f : Fields) : List (Bool × FaultCode) :=
  let n := f.w.bits
  let bits := f.bits.toNat
  let x := f.a.setWidth n
  let y := f.b.setWidth n
  match f.op with
  | .wrap => [widthCheck n bits]
  | .not | .clz | .ctz | .popcount | .bitreverse => unaryChecks f.sg n bits x
  | .byteswap => [widthCheck n bits, byteMultipleCheck bits, canonicalCheck f.sg bits x]
  | .and | .or | .xor | .addw | .subw | .mulw | .addo | .subo | .mulo | .adds | .subs | .muls =>
    binaryChecks f.sg n bits x y
  | .shl | .shr => shiftChecks f.sg n bits x (f.b.setWidth 8)
  | .divTrunc | .rem | .divFloor | .mod => divisionChecks f.sg n bits x y
  | .make | .hi | .lo | .cmp => []

/-- Every operation serves its request with `checksOf`. -/
theorem execFields_serves (f : Fields) (s : State) : ∃ l o, execFields f s = serve (checksOf f) l o s := by
  obtain ⟨op, sg, w, bits, a, b⟩ := f
  cases op <;> exact ⟨_, _, rfl⟩

section
variable (op : Op) (sg : Sign) (w : Width) (bits : BitVec 8)

theorem opNumber_packWord : opNumber (packWord (opCode op) (signBit sg) (widthCode w) bits) = (opCode op).toNat := by
  rw [← toNat_opField, opField_packWord]

theorem signNumber_packWord : signNumber (packWord (opCode op) (signBit sg) (widthCode w) bits) = sg := by
  have hop := (opCode op).isLt
  rw [signNumber, packWord_toNat]
  cases sg
  case u => exact if_pos (by simp only [signBit, BitVec.reduceToNat]; omega)
  case i => exact if_neg (by simp only [signBit, BitVec.reduceToNat]; omega)

theorem containerBits_packWord : 8 * 2 ^ widthNumber (packWord (opCode op) (signBit sg) (widthCode w) bits) = w.bits := by
  rw [← toNat_widthField, widthField_packWord]
  cases w <;> rfl

theorem bitsNumber_packWord : bitsNumber (packWord (opCode op) (signBit sg) (widthCode w) bits) = bits.toNat := by
  rw [← toNat_bitsField, bitsField_packWord]

/-- A check that is made only where the guard holds. -/
def onlyIf (guard : Bool) (check : Bool × FaultCode) : Bool × FaultCode := (guard && check.1, check.2)

/-- Rows 7 to 13 of a legal word are the machine's checks, each guarded by the OP values it is for. -/
theorem operandRows_packWord (a b : BitVec 128) :
    operandRows ⟨packWord (opCode op) (signBit sg) (widthCode w) bits, a, b⟩ =
      let code := (opCode op).toNat
      let takesBits := !only128Ops.contains code
      let x := a.setWidth w.bits
      let y := b.setWidth w.bits
      [onlyIf takesBits (widthCheck w.bits bits.toNat),
       onlyIf (decide (code = 0x1B)) (byteMultipleCheck bits.toNat),
       onlyIf (takesBits && decide (code ≠ 0x00)) (canonicalCheck sg bits.toNat x),
       onlyIf (twoOperandOps.contains code) (canonicalCheck sg bits.toNat y),
       onlyIf (decide (code = 0x05 ∨ code = 0x06)) (shiftCheck w.bits (b.setWidth 8)),
       onlyIf (divisionOps.contains code) (zeroDivisorCheck sg y),
       onlyIf (divisionOps.contains code) (divideOverflowCheck sg bits.toNat x y)] := by
  simp only [operandRows, checkRows, List.drop_succ_cons, List.drop_zero]
  rw [containerBits_packWord, opNumber_packWord, bitsNumber_packWord, signNumber_packWord]
  simp only [onlyIf, widthCheck, canonicalCheck, divideOverflowCheck, Bool.decide_or, Bool.and_assoc]
  rfl

/-- For each operation the guards leave the checks the operation makes, in the order it makes them. -/
theorem firstFault_operandRows_packWord (a b : BitVec 128) :
    firstFault (operandRows ⟨packWord (opCode op) (signBit sg) (widthCode w) bits, a, b⟩) =
      firstFault (checksOf ⟨op, sg, w, bits, a, b⟩) := by
  rw [operandRows_packWord]
  cases op <;> rfl
end

/-- The first row that applies to a request that decodes is the first check of its operation that does. -/
theorem firstCheck_of_decodeFields_ok {r : Request} {f : Fields} (h : decodeFields r = .ok f) :
    firstCheck r = firstFault (checksOf f) := by
  obtain ⟨cw, a, b⟩ := r
  obtain ⟨rfl, rfl, rfl, h128⟩ := decodeFields_ok h
  have hlegal := legalWord_iff_packWord.mpr ⟨f.op, f.sg, f.w, f.bits, rfl, h128⟩
  exact (firstCheck_of_legal hlegal).trans (firstFault_operandRows_packWord f.op f.sg f.w f.bits f.a f.b)

/-! ## The step of a request -/

/-- An unfaulted block answers a request by the first row that applies, or completes it (R310, R311). -/
theorem step_request_of_unfaulted {s : State} {r : Request} {rest : List HostAction} (hhost : s.host = .request r :: rest)
    (hf : s.fault = 0x00#8) :
    (∃ c, firstCheck r = some c ∧ step s = .next (faulted c { s with host := rest })) ∨
      (firstCheck r = none ∧ ∃ l o, step s = .next (complete l o { s with host := rest })) := by
  have hf' : ({ s with host := rest } : State).fault = 0x00#8 := hf
  cases hd : decodeFields r with
  | error c =>
    exact .inl ⟨c, firstCheck_of_decodeFields_error hd, step_request_error_of_unfaulted hhost hf (by simp [decode, hd])⟩
  | ok f =>
    obtain ⟨l, o, hserve⟩ := execFields_serves f { s with host := rest }
    rw [firstCheck_of_decodeFields_ok hd, step_request_fields hhost hd, hserve]
    cases hc : firstFault (checksOf f) with
    | some c => exact .inl ⟨c, rfl, serve_faults hf' hc l o⟩
    | none => exact .inr ⟨rfl, l, o, serve_completes hf' hc l o⟩

/-- A faulted block runs no instruction (R313). -/
theorem exec_of_faulted {s : State} (hf : s.fault ≠ 0x00#8) (i : Instr) : exec i s = .fault .requestNotAccepted := by
  obtain ⟨checks, l, o, hserve, -, -⟩ := exec_serves i s
  rw [hserve]
  exact serve_of_faulted hf checks l o

/-- A faulted block has no step under a request, whether the request decodes or not (R313). -/
theorem step_request_of_faulted {s : State} {r : Request} {rest : List HostAction} (hhost : s.host = .request r :: rest)
    (hf : s.fault ≠ 0x00#8) : step s = .fault .requestNotAccepted := by
  have hf' : ({ s with host := rest } : State).fault ≠ 0x00#8 := hf
  cases hd : decode r with
  | error c =>
    rw [step_request_error hhost hd]
    exact rejectRequest_of_faulted hf' c
  | ok i =>
    rw [step_request_ok hhost hd]
    exact exec_of_faulted hf' i

/-! ## The statements -/

/-- Settles O47: the decoder's faults are rows 1 to 6 and the checks of the decoded operation rows 7 to 13, so the step answers by
the first row that applies. -/
theorem requestsFollowTheCheckOrder : Obligations.RequestsFollowTheCheckOrder := by
  refine ⟨fun s r rest hhost hf => ?answers, by decide, by decide⟩
  case answers =>
    rcases step_request_of_unfaulted hhost hf with ⟨c, hfirst, hstep⟩ | ⟨hfirst, l, o, hstep⟩
    · rw [hfirst]
      refine ⟨?faults, by simp⟩
      case faults =>
        rintro _ ⟨⟩
        exact hstep
    · rw [hfirst]
      exact ⟨by simp, fun _ => ⟨l, o, hstep⟩⟩

/-- Settles O48: a refused request leaves `faulted` and a read without a value `raiseFault .badRead`, which write FAULT, RES and OVF
alone. -/
theorem faultEntryEmptiesTheLatches : Obligations.FaultEntryEmptiesTheLatches := by
  constructor
  · intro s r rest c hhost hf hfirst
    exact (requestsFollowTheCheckOrder.1 s r rest hhost hf).1 c hfirst
  · intro s n rest hhost hnone
    exact ⟨none, step_read_none hhost hnone⟩

/-- Settles O49: requests are refused by `accept`, FAULT and CFG have a value in every state, and no step but reset writes a FAULT
that is set. -/
theorem faultedBlockIsQuiescent : Obligations.FaultedBlockIsQuiescent := by
  intro s hf
  exact ⟨fun r rest hhost => step_request_of_faulted hhost hf, exec_of_faulted hf,
    fun rest => (hostReadsOfFaultAndCfg s rest).1, fun rest => (hostReadsOfFaultAndCfg s rest).2,
    fun t => step_fault_of_faulted hf, fun hended => hf hended.2⟩

end Sys2Proof.Machine
end

section
/-!
PROOFS. Encoding and decoding are inverse (30_encoding.md R80 to R91), and an assembler line is one request of one row (R95 to R97).
First how a row and its fields determine each other, then how a mnemonic comes apart, then the statements.
-/

namespace Sys2Proof.Machine

/-! ## A row and its fields determine each other -/

section
variable {n : Nat}

/-- An operand is read back from the lane that holds it. -/
theorem setWidth_lane (x : BitVec n) (hn : n ≤ 128) : (x.setWidth 128).setWidth n = x := by
  rw [BitVec.setWidth_setWidth_of_le x hn, BitVec.setWidth_eq]

/-- A lane with nothing above its operand is the operand extended. -/
theorem setWidth_setWidth_of_lt {x : BitVec 128} (h : x.toNat < 2 ^ n) : (x.setWidth n).setWidth 128 = x := by
  apply BitVec.eq_of_toNat_eq
  rw [BitVec.toNat_setWidth, BitVec.toNat_setWidth, Nat.mod_eq_of_lt h, Nat.mod_eq_of_lt x.isLt]

/-- The lane of an operand the operation does not take holds 0. -/
theorem setWidth_zero_lane (x : BitVec 128) : (x.setWidth 0).setWidth 128 = 0#128 := by
  rw [BitVec.eq_nil (x.setWidth 0)]
  rfl
end

/-- Each of the 258 constructors is rebuilt from its fields. -/
theorem rowOf_fieldsOf (i : Instr) : rowOf (fieldsOf i) = i := by
  cases i <;> simp only [fieldsOf, rowOf, wrapRow, notRow, andRow, orRow, xorRow, shlRow, shrRow, addwRow, subwRow, mulwRow,
    addoRow, suboRow, muloRow, addsRow, subsRow, mulsRow, divTruncRow, remRow, divFloorRow, modRow, clzRow, ctzRow, popcountRow,
    byteswapRow, bitreverseRow, makeRow, hiRow, loRow, cmpRow, Width.bits, setWidth_lane, BitVec.setWidth_eq, Nat.reduceLeDiff]

/-- A row keeps its fields, but for what its control word fixes or its lanes hold above the operands. -/
theorem fieldsOf_rowOf (f : Fields) :
    fieldsOf (rowOf f) =
      { op := f.op, sg := f.sg
        w := if f.op.only128 then .w128 else f.w
        bits := if f.op.only128 then 0#8 else f.bits
        a := (f.a.setWidth (f.op.widthA f.w)).setWidth 128
        b := (f.b.setWidth (f.op.widthB f.w)).setWidth 128 } := by
  obtain ⟨op, sg, w, bits, a, b⟩ := f
  cases op <;> simp [rowOf, Op.only128, Op.widthA, Op.widthB, setWidth_zero_lane]

/-- The fields of an instruction are those of a legal control word (R89). -/
theorem fieldsOf_of_only128 (i : Instr) (h : (fieldsOf i).op.only128 = true) :
    (fieldsOf i).w = .w128 ∧ (fieldsOf i).bits = 0#8 := by
  have hrow := fieldsOf_rowOf (fieldsOf i)
  rw [rowOf_fieldsOf, if_pos h, if_pos h] at hrow
  exact ⟨congrArg Fields.w hrow, congrArg Fields.bits hrow⟩

/-- Where the fields are those of a legal control word, their row keeps them, and its lanes hold the operands. -/
theorem fieldsOf_rowOf_of_legal {f : Fields} (h : f.op.only128 = true → f.w = .w128 ∧ f.bits = 0#8) :
    fieldsOf (rowOf f) =
      { f with
        a := (f.a.setWidth (f.op.widthA f.w)).setWidth 128
        b := (f.b.setWidth (f.op.widthB f.w)).setWidth 128 } := by
  rw [fieldsOf_rowOf]
  cases h128 : f.op.only128 with
  | false => rfl
  | true =>
    obtain ⟨hw, hbits⟩ := h h128
    simp [hw, hbits]

/-- A request that decodes gives the row of its fields, which are those of a legal control word. -/
theorem decode_ok {r : Request} {i : Instr} (h : decode r = .ok i) :
    ∃ f, i = rowOf f ∧ r = ⟨packWord (opCode f.op) (signBit f.sg) (widthCode f.w) f.bits, f.a, f.b⟩ ∧
      (f.op.only128 = true → f.w = .w128 ∧ f.bits = 0#8) := by
  obtain ⟨cw, a, b⟩ := r
  cases hf : decodeFields ⟨cw, a, b⟩ with
  | error c => simp [decode, hf] at h
  | ok f =>
    obtain ⟨rfl, rfl, rfl, hlegal⟩ := decodeFields_ok hf
    simp only [decode, hf, Except.ok.injEq] at h
    exact ⟨f, h.symm, rfl, hlegal⟩

/-! ## Mnemonics and lines (R95 to R97) -/

/-- The operation a stem belongs to. -/
def opOfStem (cs : List Char) : Option Op := (everyRow.find? fun r => stem r.1 == cs).map fun r => r.1

/-- The signedness and the width a tag belongs to. -/
def rowOfTag (cs : List Char) : Option (Sign × Width) := (everyRow.find? fun r => rowTag r.2.1 r.2.2 == cs).map fun r => r.2

theorem opOfStem_stem (op : Op) : opOfStem (stem op) = some op := by cases op <;> rfl

theorem rowOfTag_rowTag (sg : Sign) (w : Width) : rowOfTag (rowTag sg w) = some (sg, w) := by
  cases sg <;> cases w <;> rfl

theorem underscore_not_mem_rowTag (sg : Sign) (w : Width) : '_' ∉ rowTag sg w := by
  cases sg <;> cases w <;> decide

/-- The tag is what follows the last underscore: a stem may hold one, a tag does not. -/
theorem takeWhile_reverse_mnemonic (op : Op) (sg : Sign) (w : Width) :
    (mnemonic op sg w).reverse.takeWhile (· != '_') = (rowTag sg w).reverse := by
  have htag : ∀ c ∈ (rowTag sg w).reverse, (c != '_') = true := by
    intro c hc
    rw [bne_iff_ne]
    rintro rfl
    exact underscore_not_mem_rowTag sg w (List.mem_reverse.mp hc)
  rw [mnemonic, List.reverse_append, List.reverse_cons, List.append_assoc, List.takeWhile_append_of_pos htag]
  simp

/-- A mnemonic names one row: its tag gives signedness and width, and what is before the tag gives the operation. -/
theorem mnemonic_injective {op op' : Op} {sg sg' : Sign} {w w' : Width} (h : mnemonic op sg w = mnemonic op' sg' w') :
    op = op' ∧ sg = sg' ∧ w = w' := by
  have htag : rowTag sg w = rowTag sg' w' := by
    rw [← List.reverse_inj, ← takeWhile_reverse_mnemonic op, h, takeWhile_reverse_mnemonic]
  have hrow : (sg, w) = (sg', w') := by
    rw [← Option.some_inj, ← rowOfTag_rowTag, htag, rowOfTag_rowTag]
  have hstem : stem op = stem op' := by
    rw [mnemonic, mnemonic, htag] at h
    exact List.append_cancel_right h
  have hop : op = op' := by
    rw [← Option.some_inj, ← opOfStem_stem, hstem, opOfStem_stem]
  exact ⟨hop, Prod.mk.inj hrow⟩

/-- BITS of a line is the number written, and a line of a 128-only operation has W = 128 and writes none (R86). -/
theorem bitsOfLine_some {l : AsmLine} {bits : BitVec 8} (h : bitsOfLine l = some bits) :
    bits.toNat = l.bits.getD 0 ∧ (l.op.only128 = true → l.w = .w128 ∧ bits = 0#8) := by
  unfold bitsOfLine at h
  split at h
  case h_1 h128 hnone =>
    obtain ⟨hw, ⟨⟩⟩ := Option.ite_none_right_eq_some.mp h
    exact ⟨by rw [hnone]; rfl, fun _ => ⟨hw, rfl⟩⟩
  case h_2 n h128 hsome =>
    obtain ⟨hn, ⟨⟩⟩ := Option.ite_none_right_eq_some.mp h
    refine ⟨?number, fun honly => absurd (h128.symm.trans honly) Bool.false_ne_true⟩
    case number => rw [hsome, Option.getD_some, BitVec.toNat_ofNat, Nat.mod_eq_of_lt hn]
  case h_3 => cases h

/-- The request of a line is packed from the line's row and its BITS. -/
theorem assemble_some {l : AsmLine} {r : Request} (h : assemble l = some r) :
    ∃ bits, bitsOfLine l = some bits ∧ r.cw = packWord (opCode l.op) (signBit l.sg) (widthCode l.w) bits := by
  obtain ⟨bits, hbits, h⟩ := Option.bind_eq_some_iff.mp h
  obtain ⟨lanes, -, rfl⟩ := Option.map_eq_some_iff.mp h
  exact ⟨bits, hbits, rfl⟩

/-! ## The statements -/

/-- Settles O42: the word of an instruction is legal, so it decodes to the row of the instruction's fields. -/
theorem decodeInvertsEncode : Obligations.DecodeInvertsEncode := by
  intro i
  exact (decode_packWord (fieldsOf_of_only128 i) _ _ _).trans (congrArg Except.ok (rowOf_fieldsOf i))

/-- Settles O43: the row of the decoded fields keeps them, and its lanes are the request's where those hold the operands alone. -/
theorem encodeInvertsDecode : Obligations.EncodeInvertsDecode := by
  intro r i h
  obtain ⟨f, rfl, rfl, hlegal⟩ := decode_ok h
  simp only [encode, fieldsOf_rowOf_of_legal hlegal, true_and]
  intro hlanes
  simp only [Request.lanesOk, Bool.and_eq_true, decide_eq_true_eq] at hlanes
  obtain ⟨ha, hb⟩ := hlanes
  rw [setWidth_setWidth_of_lt ha, setWidth_setWidth_of_lt hb]

/-- Settles O45: a line packs a legal word of its row and BITS, whose decoded row keeps these fields; and mnemonics are
injective. -/
theorem assembledLineIsItsRow : Obligations.AssembledLineIsItsRow := by
  refine ⟨fun l r h => ?line, fun _ _ _ _ _ _ => mnemonic_injective⟩
  case line =>
    obtain ⟨cw, a, b⟩ := r
    obtain ⟨bits, hbits, rfl⟩ := assemble_some h
    obtain ⟨hnumber, hlegal⟩ := bitsOfLine_some hbits
    refine ⟨_, decode_packWord hlegal l.sg a b, ?_⟩
    rw [fieldsOf_rowOf_of_legal hlegal]
    exact ⟨rfl, rfl, rfl, hnumber⟩

end Sys2Proof.Machine
end

section
/-!
PROOFS. The adder and the subtractor composed from 64-bit halves (45_int128.md R246). First the numbers of the halves, then that
the composed carry and borrow are those of 128 bits, then the statement.
-/

namespace Sys2Proof.Machine

/-! ## The numbers of the halves -/

theorem toNat_hi64 (a : BitVec 128) : (hi64 a).toNat = a.toNat / 2 ^ 64 := by
  have hlt := a.isLt
  rw [hi64, BitVec.extractLsb'_toNat, Nat.shiftRight_eq_div_pow]
  omega

theorem toNat_lo64 (a : BitVec 128) : (lo64 a).toNat = a.toNat % 2 ^ 64 := by
  rw [lo64, BitVec.extractLsb'_toNat, Nat.shiftRight_zero]

theorem toNat_append_halves (x y : BitVec 64) : (x ++ y).toNat = x.toNat * 2 ^ 64 + y.toNat := by
  have hval := val_append x y .u
  simp only [val_u] at hval
  exact_mod_cast hval

/-! ## Carry and borrow (R246) -/

section
variable (a b : BitVec 128)

/-- The low sum is below an operand exactly when it carried. -/
theorem emuAdd_eq_add : emuAdd a b = a + b := by
  have ha := a.isLt
  have hb := b.isLt
  apply BitVec.eq_of_toNat_eq
  simp only [emuAdd, toNat_append_halves, BitVec.toNat_add, toNat_hi64, toNat_lo64]
  split <;> simp only [BitVec.toNat_ofNat] <;> omega

theorem emuSub_eq_sub : emuSub a b = a - b := by
  have ha := a.isLt
  have hb := b.isLt
  apply BitVec.eq_of_toNat_eq
  simp only [emuSub, toNat_append_halves, BitVec.toNat_sub, toNat_hi64, toNat_lo64]
  split <;> simp only [BitVec.toNat_ofNat] <;> omega

/-- The composed sum encodes the exact sum, whichever way the containers are read. -/
theorem emuAdd_eq_enc (sg : Sign) : emuAdd a b = enc 128 (val sg a + val sg b) := by
  rw [emuAdd_eq_add, enc_add, enc_val, enc_val]

theorem enc_sub (n : Nat) (v v' : Int) : enc n (v - v') = enc n v - enc n v' := by
  rw [sub_eq_add_neg, enc_add, BitVec.sub_eq_add_neg]
  exact congrArg (enc n v + ·) BitVec.ofInt_neg

/-- The composed difference encodes the exact difference, whichever way the containers are read. -/
theorem emuSub_eq_enc (sg : Sign) : emuSub a b = enc 128 (val sg a - val sg b) := by
  rw [emuSub_eq_sub, enc_sub, enc_val, enc_val]
end

/-! ## The statement -/

/-- Settles O33: ADDW and SUBW encode the reduced exact result (O8, O9), which is WRAP of the encoded exact result. -/
theorem composedAddAndSubAgree : Obligations.ComposedAddAndSubAgree := by
  intro sg bits a b s
  refine ⟨emuAdd_eq_enc a b sg, emuSub_eq_enc a b sg, fun hs hw ha hb => ⟨?addw, ?subw⟩⟩
  case addw =>
    obtain ⟨-, -, -, hadd⟩ := addwWrapsTheSum sg .w128 bits a b s hs
    obtain ⟨y, hexec, rfl, -⟩ := hadd hw ha hb
    have hwrap := wrapValue_enc sg (n := 128) (val sg a + val sg b) hw.2
    rw [emuAdd_eq_enc a b sg, hwrap]
    exact hexec
  case subw =>
    obtain ⟨-, -, -, hsub⟩ := subwWrapsTheDifference sg .w128 bits a b s hs
    obtain ⟨y, hexec, rfl, -⟩ := hsub hw ha hb
    have hwrap := wrapValue_enc sg (n := 128) (val sg a - val sg b) hw.2
    rw [emuSub_eq_enc a b sg, hwrap]
    exact hexec

end Sys2Proof.Machine
end

section
/-!
PROOFS. What every step keeps: the invariant of reachable states, CFG (10_state.md R35), the model's own fields (log entries 1, 2,
3 and 6), and that a request is answered in one step (R44). First what a read leaves and which operations keep the invariant, then
the statements.
-/

namespace Sys2Proof.Machine

/-! ## What a read leaves -/

@[simp] theorem hostRead_host (n : BitVec 8) (s : State) : (hostRead n s).host = s.host := by
  rcases hostRead_cases n s with ⟨v, -, hread⟩ | ⟨-, hread⟩
  · rw [hread]
  · rw [hread]
    rfl

@[simp] theorem hostRead_cfg (n : BitVec 8) (s : State) : (hostRead n s).cfg = s.cfg := by
  rcases hostRead_cases n s with ⟨v, -, hread⟩ | ⟨-, hread⟩
  · rw [hread]
  · rw [hread]
    rfl

/-! ## The invariant -/

/-- Every result has a width of the block (R32, R85). -/
theorem resultWidth_mem (op : Op) (w : Width) : op.resultWidth w ∈ [8, 16, 32, 64, 128] := by
  have hbits : w.bits ∈ [8, 16, 32, 64, 128] := by cases w <;> decide
  unfold Op.resultWidth
  split
  case h_8 => exact hbits
  all_goals decide

section
variable {s : State}

/-- A state with empty latches, a listed code and the parameters in CFG meets the invariant. -/
theorem inv_of_empty (hfault : s.fault.toNat ≤ 9) (hres : s.res = none) (hovf : s.ovf = none)
    (hcfg : s.cfg = Cfg.parameters) : Inv s where
  faultCode := hfault
  faultedEmpty _ := ⟨hres, hovf⟩
  resWidth l hl := by rw [hres] at hl; cases hl
  ovfBesideRes hne := absurd hovf hne
  cfgFixed := hcfg

/-- The invariant is about the block, not about what the host has still to do or last read. -/
theorem Inv.withHostFields (h : Inv s) (rest : List HostAction) (v : Option ReadValue) :
    Inv { s with host := rest, readValue := v } :=
  ⟨h.faultCode, h.faultedEmpty, h.resWidth, h.ovfBesideRes, h.cfgFixed⟩

theorem inv_resetBlock (s : State) : Inv (resetBlock s) :=
  inv_of_empty (Nat.zero_le 9) (resetBlock_res s) (resetBlock_ovf s) (resetBlock_cfg s)

theorem Inv.faulted (h : Inv s) (c : FaultCode) : Inv (faulted c s) :=
  inv_of_empty (code_le_nine c) (faulted_res c s) (faulted_ovf c s) h.cfgFixed

theorem Inv.raiseFault (h : Inv s) (c : FaultCode) : Inv (raiseFault c s) := by
  refine inv_of_empty ?_ (raiseFault_res c s) (raiseFault_ovf c s) h.cfgFixed
  rw [raiseFault_fault]
  split
  · exact code_le_nine c
  · exact h.faultCode

theorem Inv.complete (h : Inv s) (hs : s.fault = 0x00#8) {l : Latch} (hl : l.width ∈ [8, 16, 32, 64, 128])
    (o : Option Bool) : Inv (complete l o s) where
  faultCode := h.faultCode
  faultedEmpty hne := absurd hs hne
  resWidth := by rintro _ ⟨⟩; exact hl
  ovfBesideRes _ := Option.some_ne_none l
  cfgFixed := h.cfgFixed

theorem Inv.hostRead (h : Inv s) (n : BitVec 8) : Inv (hostRead n s) := by
  rcases hostRead_cases n s with ⟨v, -, hread⟩ | ⟨-, hread⟩ <;> rw [hread]
  · exact h.withHostFields s.host (some v)
  · exact (h.withHostFields s.host none).raiseFault .badRead
end

/-! ## The statements -/

/-- Settles O51: each of the answers a step can give keeps the invariant. -/
theorem stepKeepsInvariant : Obligations.StepKeepsInvariant := by
  intro s t h hstep
  rcases step_cases hstep with ⟨-, -, rfl⟩ | ⟨n, rest, -, rfl⟩ | ⟨rest, -, rfl⟩ |
    ⟨r, rest, -, hs, ⟨c, rfl⟩ | ⟨i, l, o, -, -, rfl, hwidth, -⟩⟩
  case inl => exact h
  case inr.inl => exact (h.withHostFields rest s.readValue).hostRead n
  case inr.inr.inl => exact inv_resetBlock _
  case inr.inr.inr.inl => exact (h.withHostFields rest s.readValue).faulted c
  case inr.inr.inr.inr =>
    exact (h.withHostFields rest s.readValue).complete hs (hwidth ▸ resultWidth_mem _ _) o

/-- Settles O52: the state after reset has empty latches, no fault and the parameters in CFG. -/
theorem resetStateMeetsInvariant : Obligations.ResetStateMeetsInvariant :=
  inv_of_empty (Nat.zero_le 9) reset_res reset_ovf reset_cfg

/-- Settles O50: an unfaulted block answers by the first check that applies or completes, a faulted one accepts nothing. -/
theorem oneRequestIsOneStep : Obligations.OneRequestIsOneStep := by
  intro s r rest hhost
  refine ⟨fun hs => ?answered, step_request_of_faulted hhost⟩
  case answered =>
    rcases step_request_of_unfaulted hhost hs with ⟨c, -, hstep⟩ | ⟨-, l, o, hstep⟩
    · exact ⟨_, hstep, rfl, .inr ⟨⟨c, rfl⟩, rfl, rfl⟩⟩
    · exact ⟨_, hstep, rfl, .inl ⟨hs, Option.some_ne_none l⟩⟩

/-- Settles O46: a request that decodes is executed on the state with that action taken. -/
theorem stepRunsDecodedRequest : Obligations.StepRunsDecodedRequest := by
  intro s r rest i hhost hd
  exact step_request_ok hhost hd

/-- An answered step takes the host's next action off the list. -/
theorem step_host {s t : State} {a : HostAction} {rest : List HostAction} (hhost : s.host = a :: rest)
    (hstep : step s = .next t) : t.host = rest := by
  have htail {b : HostAction} {rest' : List HostAction} (h : s.host = b :: rest') : rest' = rest :=
    (List.cons.inj (h.symm.trans hhost)).2
  rcases step_cases hstep with ⟨hnil, -, -⟩ | ⟨n, rest', h, rfl⟩ | ⟨rest', h, rfl⟩ |
    ⟨r, rest', h, -, ⟨c, rfl⟩ | ⟨i, l, o, -, -, rfl, -, -⟩⟩
  case inl => rw [hnil] at hhost; cases hhost
  case inr.inl => rw [hostRead_host]; exact htail h
  all_goals exact htail h

/-- An answered request leaves the value last read. -/
theorem step_request_readValue {s t : State} {r : Request} {rest : List HostAction} (hhost : s.host = .request r :: rest)
    (hstep : step s = .next t) : t.readValue = s.readValue := by
  by_cases hs : s.fault = 0x00#8
  case pos =>
    rcases step_request_of_unfaulted hhost hs with ⟨c, -, h⟩ | ⟨-, l, o, h⟩ <;>
      · rw [h] at hstep
        cases hstep
        rfl
  case neg =>
    rw [step_request_of_faulted hhost hs] at hstep
    cases hstep

/-- Settles O54: the idle step, the host's list and the last read value at each kind of step. -/
theorem modelFieldsAroundAStep : Obligations.ModelFieldsAroundAStep := by
  intro s
  exact ⟨fun hnil hs => (step_idle hnil).trans (idle_of_unfaulted hs),
    fun hnil hs => (step_idle hnil).trans (idle_of_faulted hs),
    fun _ _ _ => step_host,
    fun _ _ _ => step_request_readValue,
    fun _ hhost => ⟨_, step_reset hhost, resetBlock_readValue _, rfl⟩⟩

/-- A step leaves CFG, or is a reset and puts the parameter values there. -/
theorem step_cfg {s t : State} (hstep : step s = .next t) :
    t.cfg = s.cfg ∨ (∃ rest, s.host = .reset :: rest) ∧ t.cfg = State.reset.cfg := by
  rcases step_cases hstep with ⟨-, -, rfl⟩ | ⟨n, rest, -, rfl⟩ | ⟨rest, hreset, rfl⟩ |
    ⟨r, rest, -, -, ⟨c, rfl⟩ | ⟨i, l, o, -, -, rfl, -, -⟩⟩
  case inl => exact .inl rfl
  case inr.inl => exact .inl (hostRead_cfg n _)
  case inr.inr.inl => exact .inr ⟨⟨rest, hreset⟩, rfl⟩
  case inr.inr.inr.inl => exact .inl rfl
  case inr.inr.inr.inr => exact .inl rfl

/-- Settles O57: the fields are the single bits CFG is joined from, and a step keeps CFG or resets it. -/
theorem cfgFieldsAndFixedness : Obligations.CfgFieldsAndFixedness := by
  refine ⟨fun c => ?places, rfl, fun s t => step_cfg⟩
  case places =>
    simp only [cfgByte, BitVec.getLsbD_append]
    simp

end Sys2Proof.Machine
end
